-- ==== Sys2Proof/Word.lean ====
section
/-! DEFINITION. The word types of the core (00_scope.md R10, R11): a byte and an unsigned 16-bit value. -/

namespace Sys2Proof

/-- A byte, an integer 0..255 (R11). -/
abbrev Byte := BitVec 8

/-- A u16, an integer 0..65535 (R11): the checksum, the accumulator, the host command word. -/
abbrev Half := BitVec 16

end Sys2Proof
end

