-- ==== Sys2Proof/Config.lean ====
section
/-! DEFINITION. The implementation parameters of 00_scope.md R9. Each is OPEN in the spec, so each is an opaque
constant: nothing can be proved of its value. They are held so that EVERY value of a `Params` is legal
(70_reset_and_hazards.md R273 item 1: an instance with an out-of-range parameter is refused at construction;
here it cannot be written). Assumption log entry 3. -/

namespace Sys2Proof

/-- The parameters of R9, coded by their distance from the least legal value. `Machine/Operands.lean` gives the
parameters themselves (`Params.rxBufDepth`, `Params.ownAddr`, `Params.gcntWidth`). -/
structure Params where
  /-- RX_BUF_DEPTH - 11: the legal depths are those of at least 11 bytes. -/
  rxBufExtra : Nat
  /-- PRE_GUARD_TICKS. -/
  preGuardTicks : Nat
  /-- POST_GUARD_TICKS. -/
  postGuardTicks : Nat
  /-- TICK_PERIOD, in the platform's unit of time; no rule depends on it. -/
  tickPeriod : Nat
  /-- OWN_ADDR[3:0]: the legal addresses are 0x20 to 0x2F. -/
  ownAddrLow : BitVec 4
  /-- GCNT_WIDTH - bitlen(max(PRE_GUARD_TICKS, POST_GUARD_TICKS)). -/
  gcntWidthExtra : Nat
deriving DecidableEq, Repr

namespace Config

/-- OPEN (R9, 92_eei_decisions.md D10): how far RX_BUF_DEPTH exceeds 11. -/
opaque rxBufExtra : Nat

/-- OPEN (R9, 92_eei_decisions.md D14): PRE_GUARD_TICKS. -/
opaque preGuardTicks : Nat

/-- OPEN (R9, 92_eei_decisions.md D14): POST_GUARD_TICKS. -/
opaque postGuardTicks : Nat

/-- OPEN (R9, 92_eei_decisions.md D14): TICK_PERIOD. -/
opaque tickPeriod : Nat

/-- OPEN (R9, 92_eei_decisions.md D22): the low four bits of OWN_ADDR. -/
opaque ownAddrLow : BitVec 4

/-- OPEN (R9, 92_eei_decisions.md D33): how far GCNT_WIDTH exceeds its least legal value. -/
opaque gcntWidthExtra : Nat

/-- The parameters of the one instance that `State.reset` describes. -/
def params : Params where
  rxBufExtra := rxBufExtra
  preGuardTicks := preGuardTicks
  postGuardTicks := postGuardTicks
  tickPeriod := tickPeriod
  ownAddrLow := ownAddrLow
  gcntWidthExtra := gcntWidthExtra

end Config
end Sys2Proof
end

