-- ==== Sys2Proof/Syntax.lean ====
section
/-! DEFINITION. The instructions of the core: one constructor of `Instr` for each row of spec/opcode_table.json,
and `Raw`, the bits each of them is decoded from. -/

namespace Sys2Proof

/-- The fields of the 15-byte status response (41_codec.md R145), raw: the core interprets none of them. -/
structure StatusRecord where
  run : Byte
  mode : Byte
  drive : Byte
  power : Half
  rpm : Half
  gpm : Byte
  ppc : Byte
  reserved0 : Byte
  errorCode : Byte
  reserved1 : Byte
  timer : Byte
  clockHour : Byte
  clockMinute : Byte
deriving DecidableEq, Repr

/-- The instructions: the HOST rows, the FRAME_CMD rows, the INPUT_EVENT rows (30_encoding.md R70).
A HOST operation without an operand has no field for the IMM byte it ignores (R75). -/
inductive Instr where
  /-- NOP (44_control.md R231). -/
  | nop
  /-- CK_CLR (40_checksum.md R103). -/
  | ckClr
  /-- CK_ADD imm (40_checksum.md R104). -/
  | ckAdd (imm : Byte)
  /-- TX_DST imm (41_codec.md R130). -/
  | txDst (imm : Byte)
  /-- TX_SRC imm (41_codec.md R131). -/
  | txSrc (imm : Byte)
  /-- TX_CMD imm (41_codec.md R132). -/
  | txCmd (imm : Byte)
  /-- TX_PUSH imm (41_codec.md R133). -/
  | txPush (imm : Byte)
  /-- TX_CLR (41_codec.md R134). -/
  | txClr
  /-- TX_SEND (43_arbiter.md R191). -/
  | txSend
  /-- RX_FLUSH (42_reassembler.md R169). -/
  | rxFlush
  /-- A word with a reserved OP (44_control.md R232). -/
  | illegal (w : Half)
  /-- The write-register request, CMD 0x01 (41_codec.md R140; pseudo-instruction WRITE_REG, R84). -/
  | writeReg (dst src : Byte) (reg val : Half)
  /-- The remote/local request, CMD 0x04 (41_codec.md R141; pseudo-instructions REMOTE and LOCAL, R84). -/
  | remoteLocal (dst src : Byte) (remote : Bool)
  /-- The set-mode request, CMD 0x05 (41_codec.md R143; pseudo-instruction SET_MODE, R84). -/
  | setMode (dst src : Byte) (m : Byte)
  /-- The run/stop request, CMD 0x06 (41_codec.md R142; pseudo-instructions START and STOP, R84). -/
  | runStop (dst src : Byte) (start : Bool)
  /-- The status query, CMD 0x07 with LEN 0 (41_codec.md R144; pseudo-instruction STATUS_QUERY, R84). -/
  | statusQuery (dst src : Byte)
  /-- The status response, CMD 0x07 with LEN 15 (41_codec.md R145): a frame that arrives on the line, with the
  VERSION byte it carries (R126). -/
  | statusResponse (version dst src : Byte) (r : StatusRecord)
  /-- RESET (70_reset_and_hazards.md R270). -/
  | reset
  /-- RX_BYTE(b) (42_reassembler.md R161). -/
  | rxByte (b : Byte)
  /-- UART_TAKE (43_arbiter.md R195). -/
  | uartTake
  /-- UART_EMPTY (43_arbiter.md R197). -/
  | uartEmpty
  /-- TICK (43_arbiter.md R196). -/
  | tick
deriving DecidableEq, Repr

/-- What is decoded: the bits on one input port (10_state.md R44), or the bytes of one whole wire frame
(30_encoding.md R76; assumption log entry 6). -/
inductive Raw where
  /-- `rst = 1`. -/
  | rst
  /-- `tick = 1`. -/
  | tick
  /-- `utx_empty = 1`. -/
  | utxEmpty
  /-- `utx_take = 1`. -/
  | utxTake
  /-- `rx_valid = 1` with `rx_data`. -/
  | rx (data : Byte)
  /-- `host_cmd_valid = 1` with `host_cmd`. -/
  | host (w : Half)
  /-- A FRAME_CMD row as the wire frame that carries it. -/
  | frame (bytes : List Byte)
deriving DecidableEq, Repr

/-- Why an input is no instruction: the closed set of `decode` errors (41_codec.md R129) for the bytes of a frame,
and a frame that decodes but whose VERSION, CMD, LEN and DATA are those of no FRAME_CMD row. Only `Raw.frame` is ever
rejected: every other input is an instruction. -/
inductive DecodeError where
  /-- The bytes do not begin with MARKER (R123). -/
  | noMarker
  /-- Fewer bytes than the frame declares (R123). -/
  | truncated
  /-- More bytes than the frame declares (R123). -/
  | excessBytes
  /-- The received checksum is not the computed one (R123). -/
  | checksumMismatch
  /-- A verified frame that is no FRAME_CMD row (30_encoding.md R81, R82). -/
  | unlistedFrame (version cmd : Byte) (data : List Byte)
deriving DecidableEq, Repr

end Sys2Proof
end

