-- ==== Sys2Proof/Machine/Codec.lean ====
section
/-! DEFINITION. The Checksum-16 function and the frame codec: the pure functions of 40_checksum.md and 41_codec.md,
and the payload layouts of 41_codec.md section 5. -/

namespace Sys2Proof.Machine

/-! ## Byte order (00_scope.md R11, 20_memory.md R51) -/

/-- `hi8(x) = x[15:8]`. -/
def hi8 (x : Half) : Byte := x.extractLsb' 8 8

/-- `lo8(x) = x[7:0]`. -/
def lo8 (x : Half) : Byte := x.extractLsb' 0 8

/-- `{hi, lo} = hi*256 + lo`: two bytes read big-endian. -/
def be16 (hi lo : Byte) : Half := hi ++ lo

/-- `s[i..j)`, the half-open slice (R12). -/
def slice (s : List Byte) (i j : Nat) : List Byte := (s.take j).drop i

/-- `s[i]`. No rule reads an index that is not there (R12); this reads 0 (assumption log entry 13). -/
def byteAt (s : List Byte) (i : Nat) : Byte := s.getD i 0

/-! ## Checksum (40_checksum.md R100 to R102) -/

/-- `sum16(s)`: the exact sum of the bytes, reduced modulo 2^16 (R100). -/
def sum16 (s : List Byte) : Half := BitVec.ofNat 16 (s.map BitVec.toNat).sum

/-- The checksum span `f[3 .. 9+L)` with `L = f[8]` (R101). -/
def span (f : List Byte) : List Byte := slice f 3 (9 + (byteAt f 8).toNat)

/-- `cks(f)`, the checksum of a frame (R102). -/
def cks (f : List Byte) : Half := sum16 (span f)

/-! ## Frames (30_encoding.md R76 to R79) -/

/-- `MARKER`, frame offsets 0..3 (R77). -/
def marker : List Byte := [0xFF, 0x00, 0xFF, 0xA5]

/-- `N = 11 + L`, the frame length that the LEN byte gives (R78). -/
def frameLen (len : Byte) : Nat := 11 + len.toNat

/-- The frame record (R120). -/
structure Frame where
  version : Byte
  destination : Byte
  source : Byte
  commandId : Byte
  data : List Byte
  checksum : Half
deriving DecidableEq, Repr

/-- Why `encode` gives no bytes (R129). -/
inductive EncodeError where
  /-- More than 255 data bytes (R122). -/
  | payloadTooLarge
deriving DecidableEq, Repr

/-- The bytes of a frame with a given VERSION byte: the layout of R76, with the checksum over the bytes from 0xA5
through the last data byte (R101). -/
def frameBytes (version dst src cmd : Byte) (data : List Byte) : List Byte :=
  let body := [0xA5, version, dst, src, cmd, BitVec.ofNat 8 data.length] ++ data
  [0xFF, 0x00, 0xFF] ++ body ++ [hi8 (sum16 body), lo8 (sum16 body)]

/-- `encode(dst, src, cmd, data)` (R121): the VERSION byte written is always 0x00 (R80). -/
def encodeFrame (dst src cmd : Byte) (data : List Byte) : Except EncodeError (List Byte) :=
  if data.length > 255 then .error .payloadTooLarge else .ok (frameBytes 0x00 dst src cmd data)

/-- The received checksum `{f[9+L], f[10+L]}` of a frame (R79). -/
def rxChecksum (f : List Byte) : Half :=
  be16 (byteAt f (9 + (byteAt f 8).toNat)) (byteAt f (10 + (byteAt f 8).toNat))

/-- `decode(bs)` (R123), with its checks in the order of R124. VERSION is not checked (R126). -/
def decodeFrame (bs : List Byte) : Except DecodeError Frame :=
  if bs.length < 4 ∨ bs.take 4 ≠ marker then .error .noMarker
  else if bs.length < 9 then .error .truncated
  else if bs.length < frameLen (byteAt bs 8) then .error .truncated
  else if bs.length > frameLen (byteAt bs 8) then .error .excessBytes
  else if rxChecksum bs ≠ cks bs then .error .checksumMismatch
  else .ok
    { version := byteAt bs 4, destination := byteAt bs 5, source := byteAt bs 6, commandId := byteAt bs 7,
      data := slice bs 9 (9 + (byteAt bs 8).toNat), checksum := rxChecksum bs }

/-! ## Payload layouts (41_codec.md section 5) -/

/-- `wr_reg(reg, val)` (R140). -/
def wrReg (reg val : Half) : List Byte := [hi8 reg, lo8 reg, hi8 val, lo8 val]

/-- `remote_local(remote)` (R141). -/
def remoteLocalData (remote : Bool) : List Byte := if remote then [0xFF] else [0x00]

/-- `run_stop(start)` (R142). -/
def runStopData (start : Bool) : List Byte := if start then [0x0A] else [0x04]

/-- What a listed mode byte selects (R143). -/
inductive PumpMode where
  | filter
  | manual
  | preset (n : Nat)
  | externalProgram (n : Nat)
deriving DecidableEq, Repr

/-- The mode-byte table of R143; the other bytes have no meaning in the source. -/
def pumpMode (m : Byte) : Option PumpMode :=
  if m = 0x00 then some .filter
  else if m = 0x01 then some .manual
  else if 0x02 ≤ m ∧ m ≤ 0x05 then some (.preset (m.toNat - 1))
  else if 0x09 ≤ m ∧ m ≤ 0x0C then some (.externalProgram (m.toNat - 8))
  else none

/-- `set_mode(m)` (R143): `none` is the result `Invalid`. -/
def setModeData (m : Byte) : Option (List Byte) := (pumpMode m).map fun _ => [m]

/-- `status_query()` (R144). -/
def statusQueryData : List Byte := []

/-- The 15 data bytes of a status response, in the order of R145. -/
def statusData (r : StatusRecord) : List Byte :=
  [r.run, r.mode, r.drive, hi8 r.power, lo8 r.power, hi8 r.rpm, lo8 r.rpm, r.gpm, r.ppc, r.reserved0,
    r.errorCode, r.reserved1, r.timer, r.clockHour, r.clockMinute]

/-- `parse_status(fr)` (R145): a frame with CMD 0x07 and 15 data bytes, whatever its SRC and DST. -/
def parseStatus (fr : Frame) : Option StatusRecord :=
  if fr.commandId ≠ 0x07 ∨ fr.data.length ≠ 15 then none
  else
    let d := byteAt fr.data
    some
      { run := d 0, mode := d 1, drive := d 2, power := be16 (d 3) (d 4), rpm := be16 (d 5) (d 6), gpm := d 7,
        ppc := d 8, reserved0 := d 9, errorCode := d 10, reserved1 := d 11, timer := d 12, clockHour := d 13,
        clockMinute := d 14 }

/-- The fields of the source's DecodedStatus that come from a status response (R146). -/
structure DecodedStatus where
  runFlag : Byte
  operatingMode : Byte
  driveReady : Byte
  powerWatts : Half
  speedRpm : Half
  flowGpm : Byte
  errorCode : Byte
  timerRemaining : Byte
  clockHour : Byte
  clockMinute : Byte
deriving DecidableEq, Repr

/-- The correspondence of R146; `ppc` and the reserved bytes have no field. -/
def decodedStatus (r : StatusRecord) : DecodedStatus where
  runFlag := r.run
  operatingMode := r.mode
  driveReady := r.drive
  powerWatts := r.power
  speedRpm := r.rpm
  flowGpm := r.gpm
  errorCode := r.errorCode
  timerRemaining := r.timer
  clockHour := r.clockHour
  clockMinute := r.clockMinute

end Sys2Proof.Machine
end

