-- ==== Sys2Proof/Machine/Operands.lean ====
section
/-! DEFINITION. What operands and parameters are read as: the fields of the host command word (30_encoding.md R71,
R72, R74), the parameters of 00_scope.md R9, the bus address classes (20_memory.md R58) and the `for_us` flag
(41_codec.md R151). -/

namespace Sys2Proof

/-- `bitlen(n)`: the least number of bits that holds `n` (R9; assumption log entry 14). -/
def bitlen (n : Nat) : Nat := if n = 0 then 0 else Nat.log2 n + 1

/-- RX_BUF_DEPTH, at least 11. -/
def Params.rxBufDepth (p : Params) : Nat := p.rxBufExtra + 11

/-- OWN_ADDR, in 0x20..0x2F. -/
def Params.ownAddr (p : Params) : Byte := 0x2#4 ++ p.ownAddrLow

/-- GCNT_WIDTH, at least `bitlen(max(PRE_GUARD_TICKS, POST_GUARD_TICKS))`. -/
def Params.gcntWidth (p : Params) : Nat := bitlen (max p.preGuardTicks p.postGuardTicks) + p.gcntWidthExtra

namespace Machine

/-- `OP = w[15:8]` (R71). -/
def opField (w : Half) : Byte := w.extractLsb' 8 8

/-- `IMM = w[7:0]` (R71, R72): unsigned, not extended. -/
def immField (w : Half) : Byte := w.extractLsb' 0 8

/-- `w = {OP, IMM}` (R71). -/
def hostWord (op imm : Byte) : Half := op ++ imm

/-- The reserved OP values of R74. -/
def reservedOp (op : Byte) : Bool :=
  (0x03 ≤ op && op ≤ 0x0F) || (0x16 ≤ op && op ≤ 0x1F) || 0x21 ≤ op

/-- The classes of the bus address map (20_memory.md R58). -/
inductive AddrClass where
  | broadcast
  | mainController
  | remoteController
  | pump
  | unassigned
deriving DecidableEq, Repr

/-- `addr_class(a)` (R58). -/
def addrClass (a : Byte) : AddrClass :=
  if a = 0x0F then .broadcast
  else if 0x10 ≤ a ∧ a ≤ 0x1F then .mainController
  else if 0x20 ≤ a ∧ a ≤ 0x2F then .remoteController
  else if 0x60 ≤ a ∧ a ≤ 0x6F then .pump
  else .unassigned

/-- `for_us` of a received frame (R151): its destination is OWN_ADDR or the broadcast address. -/
def forUs (p : Params) (fr : Frame) : Bool := fr.destination == p.ownAddr || fr.destination == 0x0F

end Machine
end Sys2Proof
end

