-- ==== Sys2Proof/WellFormed.lean ====
section
/-! DEFINITION. Which terms of `Instr` an encoding of the spec stands for. Every operand of the core is a byte, a u16 or
a flag of any value, but for two: the word of ILLEGAL has a reserved OP (30_encoding.md R74), and the mode byte of
SET_MODE is a listed one (41_codec.md R143). -/

namespace Sys2Proof

/-- The instruction is one that some encoding of the spec stands for. -/
def Instr.wf : Instr → Bool
  | .illegal w => Machine.reservedOp (Machine.opField w)
  | .setMode _ _ m => (Machine.setModeData m).isSome
  | .nop => true
  | .ckClr => true
  | .ckAdd _ => true
  | .txDst _ => true
  | .txSrc _ => true
  | .txCmd _ => true
  | .txPush _ => true
  | .txClr => true
  | .txSend => true
  | .rxFlush => true
  | .writeReg _ _ _ _ => true
  | .remoteLocal _ _ _ => true
  | .runStop _ _ _ => true
  | .statusQuery _ _ => true
  | .statusResponse _ _ _ _ => true
  | .reset => true
  | .rxByte _ => true
  | .uartTake => true
  | .uartEmpty => true
  | .tick => true

end Sys2Proof
end

