-- ==== Sys2Proof/Decode.lean ====
section
/-! DEFINITION. The decoder, total on every input, and the encoder: the host command word (30_encoding.md R71 to R75),
the input ports (10_state.md R44) and the FRAME_CMD rows (30_encoding.md R81) inside their wire frames (R76). -/

namespace Sys2Proof

open Machine

/-! ## Decoding -/

/-- The dispatch of a host command word on its OP (44_control.md R230): every word is an instruction. -/
def decodeHost (w : Half) : Instr :=
  match (opField w).toNat with
  | 0x00 => .nop
  | 0x01 => .ckClr
  | 0x02 => .ckAdd (immField w)
  | 0x10 => .txDst (immField w)
  | 0x11 => .txSrc (immField w)
  | 0x12 => .txCmd (immField w)
  | 0x13 => .txPush (immField w)
  | 0x14 => .txClr
  | 0x15 => .txSend
  | 0x20 => .rxFlush
  | _ => .illegal w

/-- The request that a (CMD, DATA) pair is (R81; 41_codec.md R140 to R144), if it is one. -/
def decodeRequest (dst src cmd : Byte) (data : List Byte) : Option Instr :=
  if cmd = 0x01 then
    match data with
    | [regHi, regLo, valHi, valLo] => some (.writeReg dst src (be16 regHi regLo) (be16 valHi valLo))
    | _ => none
  else if cmd = 0x04 then
    if data = remoteLocalData true then some (.remoteLocal dst src true)
    else if data = remoteLocalData false then some (.remoteLocal dst src false) else none
  else if cmd = 0x05 then
    match data with
    | [m] => if (setModeData m).isSome then some (.setMode dst src m) else none
    | _ => none
  else if cmd = 0x06 then
    if data = runStopData true then some (.runStop dst src true)
    else if data = runStopData false then some (.runStop dst src false) else none
  else if cmd = 0x07 then if data = statusQueryData then some (.statusQuery dst src) else none
  else none

/-- The FRAME_CMD row that a verified frame is. A status response is recognised by CMD and LEN alone (R145), whatever its
VERSION (R126); a request is one the encoder writes, so its VERSION is 0x00 (R80). -/
def decodeRow (fr : Frame) : Except DecodeError Instr :=
  match parseStatus fr with
  | some r => .ok (.statusResponse fr.version fr.destination fr.source r)
  | none =>
    match (if fr.version = 0x00 then decodeRequest fr.destination fr.source fr.commandId fr.data else none) with
    | some i => .ok i
    | none => .error (.unlistedFrame fr.version fr.commandId fr.data)

/-- The decoder. Only a frame can be rejected, by the name of what is wrong with it. -/
def decode : Raw → Except DecodeError Instr
  | .rst => .ok .reset
  | .tick => .ok .tick
  | .utxEmpty => .ok .uartEmpty
  | .utxTake => .ok .uartTake
  | .rx b => .ok (.rxByte b)
  | .host w => .ok (decodeHost w)
  | .frame bs =>
    match decodeFrame bs with
    | .ok fr => decodeRow fr
    | .error e => .error e

/-! ## Encoding -/

/-- The bits of an instruction. An ignored IMM is written as 0x00 (R75, R83); a request is the frame that `encode` gives
(41_codec.md R121). -/
def encode : Instr → Raw
  | .nop => .host (hostWord 0x00 0x00)
  | .ckClr => .host (hostWord 0x01 0x00)
  | .ckAdd imm => .host (hostWord 0x02 imm)
  | .txDst imm => .host (hostWord 0x10 imm)
  | .txSrc imm => .host (hostWord 0x11 imm)
  | .txCmd imm => .host (hostWord 0x12 imm)
  | .txPush imm => .host (hostWord 0x13 imm)
  | .txClr => .host (hostWord 0x14 0x00)
  | .txSend => .host (hostWord 0x15 0x00)
  | .rxFlush => .host (hostWord 0x20 0x00)
  | .illegal w => .host w
  | .writeReg dst src reg val => .frame (frameBytes 0x00 dst src 0x01 (wrReg reg val))
  | .remoteLocal dst src remote => .frame (frameBytes 0x00 dst src 0x04 (remoteLocalData remote))
  | .setMode dst src m => .frame (frameBytes 0x00 dst src 0x05 [m])
  | .runStop dst src start => .frame (frameBytes 0x00 dst src 0x06 (runStopData start))
  | .statusQuery dst src => .frame (frameBytes 0x00 dst src 0x07 statusQueryData)
  | .statusResponse version dst src r => .frame (frameBytes version dst src 0x07 (statusData r))
  | .reset => .rst
  | .rxByte b => .rx b
  | .uartTake => .utxTake
  | .uartEmpty => .utxEmpty
  | .tick => .tick

/-! ## The words of spec/opcode_table.json -/

/-- The wire frame that carries an 8-bit word of the table, a CMD byte, with every operand of its row zero or false:
DST and SRC 0x00, and the DATA its payload layout gives on those operands (assumption log entry 6). -/
def tableFrame (cmd : Byte) : List Byte :=
  frameBytes 0x00 0x00 0x00 cmd
    (if cmd = 0x01 then wrReg 0x0000 0x0000
    else if cmd = 0x04 then remoteLocalData false
    else if cmd = 0x05 then [0x00]
    else if cmd = 0x06 then runStopData false
    else statusQueryData)

/-- A word of the table as the input it is: 8 bits are the CMD byte of a FRAME_CMD row, more are a host command word. -/
def tableRaw (nbits w : Nat) : Raw :=
  if nbits ≤ 8 then .frame (tableFrame (BitVec.ofNat 8 w)) else .host (BitVec.ofNat 16 w)

/-- The instruction read from an instruction whose bits, as the table numbers them, are `w`. -/
def decodeTableWord (nbits w : Nat) : Option Instr :=
  match decode (tableRaw nbits w) with
  | .ok i => some i
  | .error _ => none

end Sys2Proof
end

