-- ==== Sys2Proof/Machine/State.lean ====
section
/-! DEFINITION. The state of the core (10_state.md R20 to R33), the events of its output channel (60_exceptions.md
R241 to R248), the inputs the environment presents (10_state.md R44), and why a step can stop (60_exceptions.md
R250). -/

namespace Sys2Proof.Machine

/-- ARB_STATE (10_state.md R30). The values 5, 6 and 7 are never reached and have no constructor. -/
inductive ArbState where
  | listen
  | preGuard
  | sending
  | drain
  | postGuard
deriving DecidableEq, Repr

/-- The origin bit of EV_PTL (60_exceptions.md R246): 0 is PUSH, 1 is SEND. -/
inductive PtlOrigin where
  | push
  | send
deriving DecidableEq, Repr

/-- The payload of EV_FRAME (60_exceptions.md R242). -/
structure FrameEvent where
  version : Byte
  destination : Byte
  source : Byte
  commandId : Byte
  len : Byte
  data : List Byte
  checksum : Half
  forUs : Bool
deriving DecidableEq, Repr

/-- The events of the output channel (60_exceptions.md R241); codes 6 and 7 are reserved and never emitted. -/
inductive Event where
  /-- EV_FRAME (R242). -/
  | frame (f : FrameEvent)
  /-- EV_CKSUM_ERR (R243). -/
  | cksumErr (received computed : Half)
  /-- EV_OVERRUN (R244). -/
  | overrun (dropped : Byte)
  /-- EV_PTL (R246). -/
  | ptl (origin : PtlOrigin)
  /-- EV_TX_DONE (R247), a 9-bit count. -/
  | txDone (bytes : BitVec 9)
  /-- EV_ILLEGAL_OP (R248). -/
  | illegalOp (word : Half)
deriving DecidableEq, Repr

/-- The input ports in one clock cycle (10_state.md R44): which of them present an input event, and its data. -/
structure Cycle where
  rst : Bool
  tick : Bool
  utxEmpty : Bool
  utxTake : Bool
  rx : Option Byte
  host : Option Half
deriving DecidableEq, Repr

/-- What the environment presents: the input ports of one cycle, or a FRAME_CMD row as a whole wire frame
(assumption log entries 1 and 6). -/
inductive Input where
  | cycle (c : Cycle)
  | frame (bytes : List Byte)
deriving DecidableEq, Repr

/-- The state: the spec's tuple (10_state.md R20), then three fields of the model's own. -/
structure State where
  /-- CK_ACC (R23). -/
  ckAcc : Half
  /-- TXH_DST (R24). -/
  txhDst : Byte
  /-- TXH_SRC (R25). -/
  txhSrc : Byte
  /-- TXH_CMD (R26). -/
  txhCmd : Byte
  /-- TX_DATA[0..TX_LEN) (R27); TX_LEN is its length. -/
  txData : List Byte
  /-- TX_PTL (R28). -/
  txPtl : Bool
  /-- TXQ (R29). -/
  txq : List Byte
  /-- TXI (R29). -/
  txi : Nat
  /-- ARB_STATE (R30). -/
  arb : ArbState
  /-- DE (R31). -/
  de : Bool
  /-- GCNT (R32). -/
  gcnt : Nat
  /-- RB (R33), the oldest byte first. -/
  rb : List Byte
  /-- The implementation parameters (00_scope.md R9), which no step writes (assumption log entry 3). -/
  params : Params
  /-- The input events still to come, the next first (assumption log entry 1). -/
  pending : List Input
  /-- The events put on the output event channel so far, the oldest first (assumption log entry 2). -/
  chan : List Event
deriving DecidableEq, Repr

/-- The model faults (60_exceptions.md R250 to R252). Both are SAFE: the hardware does something here that the spec does not
say, and the model stops. -/
inductive Fault where
  /-- MF_SEND_BUSY, raised by TX_SEND (and by the requests, which end in one) while ARB_STATE is not LISTEN; it records the
  ARB_STATE (R251). Safe. -/
  | sendBusy (arb : ArbState)
  /-- MF_UART_TAKE, raised by UART_TAKE while ARB_STATE is not SENDING; it records the ARB_STATE (R252). Safe. -/
  | uartTake (arb : ArbState)
deriving DecidableEq, Repr

/-- Why the model gives an input no meaning. -/
inductive Refusal where
  /-- An instruction that is not modelled yet. No arm of `exec` answers it now. Safe. -/
  | notModelled (mnemonic : String)
  /-- `set_mode(m)` is Invalid (41_codec.md R143, 93_implementation_defined.md I21), raised by SET_MODE: there is no payload to
  send. Safe. -/
  | invalidMode (m : Byte)
  /-- The bytes of a frame input are no FRAME_CMD row, raised by `step` (assumption log entry 7). Safe. -/
  | undecoded (e : DecodeError)
deriving DecidableEq, Repr

/-- The state right after RESET (10_state.md R40) of an instance with the given parameters, with no input presented and
nothing on the event channel. -/
def State.resetWith (p : Params) : State where
  ckAcc := 0x0000
  txhDst := 0x00
  txhSrc := 0x00
  txhCmd := 0x00
  txData := []
  txPtl := false
  txq := []
  txi := 0
  arb := .listen
  de := false
  gcnt := 0
  rb := []
  params := p
  pending := []
  chan := []

/-- The machine right after reset (10_state.md R40), its parameters the open constants of `Config`. -/
def State.reset : State := State.resetWith Config.params

end Sys2Proof.Machine
end

