-- ==== Sys2Proof/Machine/Ops.lean ====
section
/-! DEFINITION. The operations the meanings share. The core takes no exception (60_exceptions.md R245, R256): every error
is an event, so the operation that takes the place of exception entry is `emit`, and there is nothing to return from. -/

namespace Sys2Proof.Machine

/-- `emit` (00_scope.md R13): put events on the output channel, in order, after all that are there
(60_exceptions.md R240, R254). -/
def emit (evs : List Event) (s : State) : State := { s with chan := s.chan ++ evs }

/-! ## Checksum-16 generator -/

/-- Write CK_ACC. -/
def setCkAcc (x : Half) (s : State) : State := { s with ckAcc := x }

/-! ## Frame encoder registers -/

/-- Write TXH_DST. -/
def setTxhDst (b : Byte) (s : State) : State := { s with txhDst := b }

/-- Write TXH_SRC. -/
def setTxhSrc (b : Byte) (s : State) : State := { s with txhSrc := b }

/-- Write TXH_CMD. -/
def setTxhCmd (b : Byte) (s : State) : State := { s with txhCmd := b }

/-- Append to the payload, or flag PayloadTooLarge when it already holds 255 bytes (41_codec.md R133). -/
def pushPayload (b : Byte) (s : State) : State :=
  if s.txData.length < 255 then { s with txData := s.txData ++ [b] }
  else emit [.ptl .push] { s with txPtl := true }

/-- Empty the payload and clear TX_PTL (41_codec.md R134). -/
def clearPayload (s : State) : State := { s with txData := [], txPtl := false }

/-! ## Arbiter -/

/-- Put the encoded frame on the line: take the snapshot, enable the driver, and count the pre-transmit guard if there is
one (43_arbiter.md R191). -/
def startFrame (f : List Byte) (s : State) : State :=
  { s with
    txq := f
    txi := 0
    de := true
    arb := if s.params.preGuardTicks = 0 then .sending else .preGuard
    gcnt := if s.params.preGuardTicks = 0 then s.gcnt else s.params.preGuardTicks }

/-- TX_SEND (43_arbiter.md R191): the busy check first (R193), then TX_PTL (R192), then `encode`. A payload that `encode`
rejects cannot occur (41_codec.md R122); the send is then refused as R192 refuses one (assumption log entry 8). -/
def sendPayload (s : State) : Host.Outcome State Fault Refusal :=
  if s.arb ≠ .listen then .fault (.sendBusy s.arb)
  else if s.txPtl then .next (emit [.ptl .send] s)
  else
    match encodeFrame s.txhDst s.txhSrc s.txhCmd s.txData with
    | .ok f => .next (startFrame f s)
    | .error _ => .next (emit [.ptl .send] s)

/-- `finish()` (43_arbiter.md R196): report the bytes sent and return the line to listen mode. -/
def finish (s : State) : State :=
  { emit [.txDone (BitVec.ofNat 9 s.txq.length)] s with arb := .listen, de := false, txq := [], txi := 0 }

/-- UART_TAKE (43_arbiter.md R195). -/
def takeByte (s : State) : Host.Outcome State Fault Refusal :=
  if s.arb ≠ .sending then .fault (.uartTake s.arb)
  else if s.txi + 1 = s.txq.length then .next { s with txi := s.txi + 1, arb := .drain }
  else .next { s with txi := s.txi + 1 }

/-- UART_EMPTY (43_arbiter.md R197): it counts in DRAIN only. -/
def uartDrained (s : State) : State :=
  if s.arb = .drain then
    if s.params.postGuardTicks = 0 then finish s
    else { s with arb := .postGuard, gcnt := s.params.postGuardTicks }
  else s

/-- TICK (43_arbiter.md R196): it counts in the two guard states only (assumption log entry 9 for GCNT = 0). -/
def tickGuard (s : State) : State :=
  match s.arb with
  | .preGuard =>
    if s.gcnt - 1 = 0 then { s with gcnt := s.gcnt - 1, arb := .sending } else { s with gcnt := s.gcnt - 1 }
  | .postGuard =>
    if s.gcnt - 1 = 0 then finish { s with gcnt := s.gcnt - 1 } else { s with gcnt := s.gcnt - 1 }
  | .listen => s
  | .sending => s
  | .drain => s

/-! ## Reassembler -/

/-- The EV_FRAME that reports a decoded frame (60_exceptions.md R242). -/
def frameEvent (p : Params) (fr : Frame) : Event :=
  .frame
    { version := fr.version, destination := fr.destination, source := fr.source, commandId := fr.commandId,
      len := BitVec.ofNat 8 fr.data.length, data := fr.data, checksum := fr.checksum, forUs := forUs p fr }

/-- `append(b)` (42_reassembler.md R162): the events it emits and RB after it. -/
def appendByte (p : Params) (b : Byte) (rb : List Byte) : List Event × List Byte :=
  if rb.length = p.rxBufDepth then ([.overrun (byteAt rb 0)], rb.drop 1 ++ [b]) else ([], rb ++ [b])

/-- One turn of the loop of `settle` (42_reassembler.md R163): none where it returns (w1, w2, w3), else the events it emits
and RB after it. -/
def settleTurn (p : Params) (rb : List Byte) : Option (List Event × List Byte) :=
  if rb.length < 4 then none
  else if rb.take 4 ≠ marker then some ([], rb.drop 1)
  else if rb.length < 11 then none
  else if rb.length < frameLen (byteAt rb 8) then none
  else
    let n := frameLen (byteAt rb 8)
    match decodeFrame (rb.take n) with
    | .ok fr => some ([frameEvent p fr], rb.drop n)
    | .error _ =>
      some ([.cksumErr (be16 (byteAt rb (n - 2)) (byteAt rb (n - 1))) (sum16 (slice rb 3 (n - 2)))], rb.drop 1)

/-- At most `fuel` turns of the loop: the events in emit order and RB at the end. -/
def settleLoop (p : Params) : Nat → List Byte → List Event × List Byte
  | 0, rb => ([], rb)
  | fuel + 1, rb =>
    match settleTurn p rb with
    | none => ([], rb)
    | some (evs, rb') => (evs ++ (settleLoop p fuel rb').1, (settleLoop p fuel rb').2)

/-- `settle()` (42_reassembler.md R163). A turn that goes on removes a byte at least, so as many turns as RB has bytes reach
its end (R170; assumption log entry 12). -/
def settle (p : Params) (rb : List Byte) : List Event × List Byte := settleLoop p rb.length rb

/-- RX_BYTE(b) (42_reassembler.md R161): discarded outside LISTEN, else appended and settled. -/
def receiveByte (b : Byte) (s : State) : State :=
  if s.arb ≠ .listen then s
  else
    let appended := appendByte s.params b s.rb
    let settled := settle s.params appended.2
    emit (appended.1 ++ settled.1) { s with rb := settled.2 }

/-- Bytes that arrive one after the other. -/
def receiveBytes (bs : List Byte) (s : State) : State := bs.foldl (fun t b => receiveByte b t) s

/-! ## Whole frames (30_encoding.md R84) -/

/-- The pseudo-instruction `SEND dst, src, cmd, data` (R84): TX_CLR, TX_DST, TX_SRC, TX_CMD, a TX_PUSH for each data byte,
TX_SEND, in that order (assumption log entry 4). -/
def sendRequest (dst src cmd : Byte) (data : List Byte) (s : State) : Host.Outcome State Fault Refusal :=
  sendPayload (data.foldl (fun t b => pushPayload b t) (setTxhCmd cmd (setTxhSrc src (setTxhDst dst (clearPayload s)))))

/-- Every state element takes its reset value (10_state.md R40, 70_reset_and_hazards.md R270). The parameters, the inputs
still to come and the events already emitted are no state elements of the spec and stay (assumption log entries 1 to 3). -/
def resetCore (s : State) : State :=
  { State.resetWith s.params with pending := s.pending, chan := s.chan }

end Sys2Proof.Machine
end

