-- ==== Sys2Proof/Machine/Arbiter.lean ====
section
/-! DEFINITION. The RS-485 half-duplex arbiter (43_arbiter.md): TX_SEND, UART_TAKE, UART_EMPTY and TICK. -/

namespace Sys2Proof.Machine

/-- TX_SEND (R191 to R193). -/
def execTxSend (s : State) : Host.Outcome State Fault Refusal := sendPayload s

/-- UART_TAKE (R195). -/
def execUartTake (s : State) : Host.Outcome State Fault Refusal := takeByte s

/-- UART_EMPTY (R197). -/
def execUartEmpty (s : State) : Host.Outcome State Fault Refusal := .next (uartDrained s)

/-- TICK (R196). -/
def execTick (s : State) : Host.Outcome State Fault Refusal := .next (tickGuard s)

end Sys2Proof.Machine
end

