-- ==== Sys2Proof/Machine/Checksum.lean ====
section
/-! DEFINITION. The host operations of the Checksum-16 generator (40_checksum.md section 2). -/

namespace Sys2Proof.Machine

/-- CK_CLR (R103). -/
def execCkClr (s : State) : Host.Outcome State Fault Refusal := .next (setCkAcc 0x0000 s)

/-- CK_ADD (R104): modulo 2^16, the carry out of bit 15 is not recorded. -/
def execCkAdd (imm : Byte) (s : State) : Host.Outcome State Fault Refusal :=
  .next (setCkAcc (s.ckAcc + imm.setWidth 16) s)

end Sys2Proof.Machine
end

