-- ==== Sys2Proof/Machine/Control.lean ====
section
/-! DEFINITION. NOP and the reserved opcodes (44_control.md), and RESET (70_reset_and_hazards.md). -/

namespace Sys2Proof.Machine

/-- NOP (R231). -/
def execNop (s : State) : Host.Outcome State Fault Refusal := .next s

/-- A reserved opcode (R232): an event, no trap and no fault. -/
def execIllegal (w : Half) (s : State) : Host.Outcome State Fault Refusal := .next (emit [.illegalOp w] s)

/-- RESET (R270): no event, not even for a transmission it aborts (R271). -/
def execReset (s : State) : Host.Outcome State Fault Refusal := .next (resetCore s)

end Sys2Proof.Machine
end

