-- ==== Sys2Proof/Machine/Encoder.lean ====
section
/-! DEFINITION. The host operations of the frame encoder (41_codec.md section 4). All are legal in every ARB_STATE and change
only the next frame (20_memory.md R67). -/

namespace Sys2Proof.Machine

/-- TX_DST (R130). -/
def execTxDst (imm : Byte) (s : State) : Host.Outcome State Fault Refusal := .next (setTxhDst imm s)

/-- TX_SRC (R131). -/
def execTxSrc (imm : Byte) (s : State) : Host.Outcome State Fault Refusal := .next (setTxhSrc imm s)

/-- TX_CMD (R132). -/
def execTxCmd (imm : Byte) (s : State) : Host.Outcome State Fault Refusal := .next (setTxhCmd imm s)

/-- TX_PUSH (R133). -/
def execTxPush (imm : Byte) (s : State) : Host.Outcome State Fault Refusal := .next (pushPayload imm s)

/-- TX_CLR (R134). -/
def execTxClr (s : State) : Host.Outcome State Fault Refusal := .next (clearPayload s)

end Sys2Proof.Machine
end

