-- ==== Sys2Proof/Machine/Frames.lean ====
section
/-! DEFINITION. The FRAME_CMD rows (30_encoding.md R81). The five requests are the pseudo-instructions of R84, run back to
back: the host fills the payload with the layouts of 41_codec.md section 5 and sends the frame (assumption log entry 4). The
status response is a frame that arrives on the line (assumption log entry 5). -/

namespace Sys2Proof.Machine

/-- WRITE_REG (41_codec.md R140). -/
def execWriteReg (dst src : Byte) (reg val : Half) (s : State) : Host.Outcome State Fault Refusal :=
  sendRequest dst src 0x01 (wrReg reg val) s

/-- REMOTE and LOCAL (41_codec.md R141). -/
def execRemoteLocal (dst src : Byte) (remote : Bool) (s : State) : Host.Outcome State Fault Refusal :=
  sendRequest dst src 0x04 (remoteLocalData remote) s

/-- SET_MODE (41_codec.md R143): for a byte that is no listed mode there is no payload to send. -/
def execSetMode (dst src : Byte) (m : Byte) (s : State) : Host.Outcome State Fault Refusal :=
  match setModeData m with
  | some data => sendRequest dst src 0x05 data s
  | none => .refused (.invalidMode m)

/-- START and STOP (41_codec.md R142). -/
def execRunStop (dst src : Byte) (start : Bool) (s : State) : Host.Outcome State Fault Refusal :=
  sendRequest dst src 0x06 (runStopData start) s

/-- STATUS_QUERY (41_codec.md R144). -/
def execStatusQuery (dst src : Byte) (s : State) : Host.Outcome State Fault Refusal :=
  sendRequest dst src 0x07 statusQueryData s

/-- A status response on the line (41_codec.md R145): its 26 bytes as RX_BYTE events. -/
def execStatusResponse (version dst src : Byte) (r : StatusRecord) (s : State) : Host.Outcome State Fault Refusal :=
  .next (receiveBytes (frameBytes version dst src 0x07 (statusData r)) s)

end Sys2Proof.Machine
end

