-- ==== Sys2Proof/Machine/Reassembler.lean ====
section
/-! DEFINITION. The stream reassembler (42_reassembler.md): RX_BYTE and RX_FLUSH. -/

namespace Sys2Proof.Machine

/-- RX_BYTE (R161). -/
def execRxByte (b : Byte) (s : State) : Host.Outcome State Fault Refusal := .next (receiveByte b s)

/-- RX_FLUSH (R169): no event, in every ARB_STATE. -/
def execRxFlush (s : State) : Host.Outcome State Fault Refusal := .next { s with rb := [] }

end Sys2Proof.Machine
end

