-- ==== Sys2Proof/Machine/Dispatch.lean ====
section
/-! DEFINITION. `exec`: one arm for each constructor of `Instr`. -/

namespace Sys2Proof.Machine

def exec (i : Instr) (s : State) : Host.Outcome State Fault Refusal :=
  match i with
  | .nop => Sys2Proof.Machine.execNop s
  | .ckClr => Sys2Proof.Machine.execCkClr s
  | .ckAdd imm => Sys2Proof.Machine.execCkAdd imm s
  | .txDst imm => Sys2Proof.Machine.execTxDst imm s
  | .txSrc imm => Sys2Proof.Machine.execTxSrc imm s
  | .txCmd imm => Sys2Proof.Machine.execTxCmd imm s
  | .txPush imm => Sys2Proof.Machine.execTxPush imm s
  | .txClr => Sys2Proof.Machine.execTxClr s
  | .txSend => Sys2Proof.Machine.execTxSend s
  | .rxFlush => Sys2Proof.Machine.execRxFlush s
  | .illegal w => Sys2Proof.Machine.execIllegal w s
  | .writeReg dst src reg val => Sys2Proof.Machine.execWriteReg dst src reg val s
  | .remoteLocal dst src remote => Sys2Proof.Machine.execRemoteLocal dst src remote s
  | .setMode dst src m => Sys2Proof.Machine.execSetMode dst src m s
  | .runStop dst src start => Sys2Proof.Machine.execRunStop dst src start s
  | .statusQuery dst src => Sys2Proof.Machine.execStatusQuery dst src s
  | .statusResponse version dst src r => Sys2Proof.Machine.execStatusResponse version dst src r s
  | .reset => Sys2Proof.Machine.execReset s
  | .rxByte b => Sys2Proof.Machine.execRxByte b s
  | .uartTake => Sys2Proof.Machine.execUartTake s
  | .uartEmpty => Sys2Proof.Machine.execUartEmpty s
  | .tick => Sys2Proof.Machine.execTick s

end Sys2Proof.Machine
end

