-- ==== Sys2Proof/Machine/Inputs.lean ====
section
/-! DEFINITION. Which input event is applied next: the order of 44_control.md R233 inside a clock cycle, and the order in
which the environment presents its cycles and frames. -/

namespace Sys2Proof.Machine

/-- A cycle in which no port presents anything. -/
def Cycle.idle : Cycle where
  rst := false
  tick := false
  utxEmpty := false
  utxTake := false
  rx := none
  host := none

/-- A cycle that presents one host command word. -/
def Cycle.hostOnly (w : Half) : Cycle := { Cycle.idle with host := some w }

/-- The input event of a cycle that is applied first, and what of the cycle is then left (R233): RESET, which discards the
others, then TICK, UART_EMPTY, UART_TAKE, RX_BYTE, HOST_OP. -/
def Cycle.first (c : Cycle) : Option (Raw × Cycle) :=
  if c.rst then some (.rst, Cycle.idle)
  else if c.tick then some (.tick, { c with tick := false })
  else if c.utxEmpty then some (.utxEmpty, { c with utxEmpty := false })
  else if c.utxTake then some (.utxTake, { c with utxTake := false })
  else
    match c.rx, c.host with
    | some b, _ => some (.rx b, { c with rx := none })
    | none, some w => some (.host w, { c with host := none })
    | none, none => none

/-- What one step takes from the pending inputs: nothing when there is none; else the input it applies, if the front cycle
presents any, and the inputs left. -/
def takeInput : List Input → Option (Option Raw × List Input)
  | [] => none
  | .frame bs :: rest => some (some (.frame bs), rest)
  | .cycle c :: rest =>
    match c.first with
    | none => some (none, rest)
    | some (raw, c') => some (some raw, if c' = Cycle.idle then rest else .cycle c' :: rest)

/-- An input that presents exactly one raw instruction. -/
def Input.only : Raw → Input
  | .rst => .cycle { Cycle.idle with rst := true }
  | .tick => .cycle { Cycle.idle with tick := true }
  | .utxEmpty => .cycle { Cycle.idle with utxEmpty := true }
  | .utxTake => .cycle { Cycle.idle with utxTake := true }
  | .rx b => .cycle { Cycle.idle with rx := some b }
  | .host w => .cycle (Cycle.hostOnly w)
  | .frame bs => .frame bs

end Sys2Proof.Machine
end

