-- ==== Sys2Proof/Machine/Step.lean ====
section
/-! DEFINITION. One step: take the next input event, decode it, run it (00_scope.md R6). -/

namespace Sys2Proof.Machine

/-- One step of the core. With no input event nothing happens: no part of the core steps on its own
(00_scope.md R7, 60_exceptions.md R262). -/
def step (s : State) : Host.Outcome State Fault Refusal :=
  match takeInput s.pending with
  | none => .next s
  | some (none, rest) => .next { s with pending := rest }
  | some (some raw, rest) =>
    match decode raw with
    | .ok i => exec i { s with pending := rest }
    | .error e => .refused (.undecoded e)

/-- The state with the instruction of a word of spec/opcode_table.json as its next input (assumption log entry 6). -/
def State.withFetchWord (s : State) (nbits w : Nat) : State :=
  { s with pending := Input.only (tableRaw nbits w) :: s.pending }

end Sys2Proof.Machine
end

