-- ==== Sys2Proof/Machine/Assembler.lean ====
section
/-! DEFINITION. The host assembler: the pseudo-instructions of 30_encoding.md R84 and the line syntax of R83. It runs on the
host: nothing of it is in the core, and `exec` uses none of it. Assumption log entry 15 names what R83 leaves open. -/

namespace Sys2Proof

/-- Why a line is an assembly error. -/
inductive AsmError where
  /-- No mnemonic of R73 or R84. -/
  | unknownMnemonic
  /-- An operand that is no number, or one outside its range (R83). -/
  | badOperand
  /-- Too few or too many operands (R83). -/
  | operandCount
  /-- A FRAME or SEND with more than 255 data bytes (R84). -/
  | tooMuchData
  /-- A SET_MODE with a byte that is no listed mode (R84). -/
  | illegalMode
deriving DecidableEq, Repr

/-- The pseudo-instructions of R84. -/
inductive Pseudo where
  | cksum (bytes : List Byte)
  | frame (dst src cmd : Byte) (data : List Byte)
  | send (dst src cmd : Byte) (data : List Byte)
  | writeReg (dst src : Byte) (reg val : Half)
  | remote (dst src : Byte)
  | locally (dst src : Byte)
  | setMode (dst src m : Byte)
  | start (dst src : Byte)
  | stop (dst src : Byte)
  | statusQuery (dst src : Byte)
deriving DecidableEq, Repr

namespace Machine

/-! ## Pseudo-instructions -/

/-- The host words of `FRAME dst, src, cmd, data` (R84). -/
def frameWords (dst src cmd : Byte) (data : List Byte) : List Half :=
  [hostWord 0x14 0x00, hostWord 0x10 dst, hostWord 0x11 src, hostWord 0x12 cmd] ++ data.map (hostWord 0x13)

/-- The host words of `SEND dst, src, cmd, data` (R84). -/
def sendWords (dst src cmd : Byte) (data : List Byte) : List Half := frameWords dst src cmd data ++ [hostWord 0x15 0x00]

/-- What a pseudo-instruction expands to (R84). -/
def expand : Pseudo → Except AsmError (List Half)
  | .cksum bytes => .ok (hostWord 0x01 0x00 :: bytes.map (hostWord 0x02))
  | .frame dst src cmd data => if data.length > 255 then .error .tooMuchData else .ok (frameWords dst src cmd data)
  | .send dst src cmd data => if data.length > 255 then .error .tooMuchData else .ok (sendWords dst src cmd data)
  | .writeReg dst src reg val => .ok (sendWords dst src 0x01 (wrReg reg val))
  | .remote dst src => .ok (sendWords dst src 0x04 (remoteLocalData true))
  | .locally dst src => .ok (sendWords dst src 0x04 (remoteLocalData false))
  | .setMode dst src m =>
    match setModeData m with
    | some data => .ok (sendWords dst src 0x05 data)
    | none => .error .illegalMode
  | .start dst src => .ok (sendWords dst src 0x06 (runStopData true))
  | .stop dst src => .ok (sendWords dst src 0x06 (runStopData false))
  | .statusQuery dst src => .ok (sendWords dst src 0x07 statusQueryData)

/-- The pseudo-instruction a FRAME_CMD request is (R84). -/
def requestPseudo : Instr → Option Pseudo
  | .writeReg dst src reg val => some (.writeReg dst src reg val)
  | .remoteLocal dst src remote => some (if remote then .remote dst src else .locally dst src)
  | .setMode dst src m => some (.setMode dst src m)
  | .runStop dst src start => some (if start then .start dst src else .stop dst src)
  | .statusQuery dst src => some (.statusQuery dst src)
  | _ => none

/-! ## Lines of text -/

/-- The value of a digit in base 16 (a decimal digit is below 10). -/
def digitValue (c : Char) : Option Nat :=
  if '0' ≤ c ∧ c ≤ '9' then some (c.toNat - '0'.toNat)
  else if 'a' ≤ c ∧ c ≤ 'f' then some (c.toNat - 'a'.toNat + 10)
  else if 'A' ≤ c ∧ c ≤ 'F' then some (c.toNat - 'A'.toNat + 10)
  else none

/-- Digits in a base, the most significant first, after the value `acc`. -/
def digits (base : Nat) : Nat → List Char → Option Nat
  | acc, [] => some acc
  | acc, c :: cs =>
    match digitValue c with
    | some d => if d < base then digits base (acc * base + d) cs else none
    | none => none

/-- A number, hexadecimal after `0x` or decimal (R83). -/
def number : List Char → Option Nat
  | [] => none
  | '0' :: 'x' :: [] => none
  | '0' :: 'x' :: cs => digits 16 0 cs
  | cs => digits 10 0 cs

/-- A space or a tab. -/
def isBlank (c : Char) : Bool := c == ' ' || c == '\t'

/-- The text of a line without its comment (R83). -/
def withoutComment (line : List Char) : List Char := line.takeWhile (· != ';')

/-- The text without blanks at either end. -/
def trim (cs : List Char) : List Char := ((cs.dropWhile isBlank).reverse.dropWhile isBlank).reverse

/-- The operand texts: separated by commas, none when the text is empty. -/
def operandTexts (cs : List Char) : List (List Char) :=
  if cs.isEmpty then [] else (cs.splitOn ',').map trim

/-- The numbers a list of operand texts holds, each below `bound`. -/
def operands (bound : Nat) : List (List Char) → Except AsmError (List Nat)
  | [] => .ok []
  | t :: ts =>
    match number t with
    | none => .error .badOperand
    | some n =>
      if n < bound then
        match operands bound ts with
        | .ok ns => .ok (n :: ns)
        | .error e => .error e
      else .error .badOperand

/-- The OP of a host mnemonic in capitals, and whether it takes an operand (R73). -/
def mnemonicOp (m : List Char) : Option (Byte × Bool) :=
  if m = "NOP".toList then some (0x00, false)
  else if m = "CK_CLR".toList then some (0x01, false)
  else if m = "CK_ADD".toList then some (0x02, true)
  else if m = "TX_DST".toList then some (0x10, true)
  else if m = "TX_SRC".toList then some (0x11, true)
  else if m = "TX_CMD".toList then some (0x12, true)
  else if m = "TX_PUSH".toList then some (0x13, true)
  else if m = "TX_CLR".toList then some (0x14, false)
  else if m = "TX_SEND".toList then some (0x15, false)
  else if m = "RX_FLUSH".toList then some (0x20, false)
  else none

/-- The pseudo-instruction of a mnemonic in capitals with its operands (R84). -/
def pseudoOf (m : List Char) (ops : List Nat) : Except AsmError Pseudo :=
  let byte (n : Nat) : Byte := BitVec.ofNat 8 n
  let small := ops.all (· < 256)
  if m = "WRITE_REG".toList then
    match ops with
    | [d, s, r, v] =>
      if d < 256 ∧ s < 256 then .ok (.writeReg (byte d) (byte s) (BitVec.ofNat 16 r) (BitVec.ofNat 16 v))
      else .error .badOperand
    | _ => .error .operandCount
  else if m = "CKSUM".toList then if small then .ok (.cksum (ops.map byte)) else .error .badOperand
  else if m = "FRAME".toList then
    match ops with
    | d :: s :: c :: data =>
      if small then .ok (.frame (byte d) (byte s) (byte c) (data.map byte)) else .error .badOperand
    | _ => .error .operandCount
  else if m = "SEND".toList then
    match ops with
    | d :: s :: c :: data => if small then .ok (.send (byte d) (byte s) (byte c) (data.map byte)) else .error .badOperand
    | _ => .error .operandCount
  else if m = "SET_MODE".toList then
    match ops with
    | [d, s, v] => if small then .ok (.setMode (byte d) (byte s) (byte v)) else .error .badOperand
    | _ => .error .operandCount
  else
    let toPump : Except AsmError (Byte → Byte → Pseudo) :=
      if m = "REMOTE".toList then .ok .remote
      else if m = "LOCAL".toList then .ok .locally
      else if m = "START".toList then .ok .start
      else if m = "STOP".toList then .ok .stop
      else if m = "STATUS_QUERY".toList then .ok .statusQuery
      else .error .unknownMnemonic
    match toPump, ops with
    | .error e, _ => .error e
    | .ok f, [d, s] => if small then .ok (f (byte d) (byte s)) else .error .badOperand
    | .ok _, _ => .error .operandCount

/-- The host words of one line (R83, R84): none for a line with no command. R83 says of the mnemonics of R73 that they are
case-insensitive; that the directive `.word` and the pseudo-instructions are so too is the model's choice (DESIGN CHOICE, log
entry 15). -/
def assembleLine (line : List Char) : Except AsmError (List Half) :=
  let text := trim (withoutComment line)
  let head := text.takeWhile (fun c => !isBlank c)
  let rest := operandTexts (trim (text.drop head.length))
  let m := head.map Char.toUpper
  if text.isEmpty then .ok []
  else if m = ".WORD".toList then
    match rest with
    | [['0', 'x', a, b, c, d]] =>
      match digits 16 0 [a, b, c, d] with
      | some n => .ok [BitVec.ofNat 16 n]
      | none => .error .badOperand
    | [_] => .error .badOperand
    | _ => .error .operandCount
  else
    match mnemonicOp m with
    | some (op, true) =>
      match operands 256 rest with
      | .ok [n] => .ok [hostWord op (BitVec.ofNat 8 n)]
      | .ok _ => .error .operandCount
      | .error e => .error e
    | some (op, false) => if rest.isEmpty then .ok [hostWord op 0x00] else .error .operandCount
    | none =>
      match operands 65536 rest with
      | .ok ops =>
        match pseudoOf m ops with
        | .ok p => expand p
        | .error e => .error e
      | .error e => .error e

/-- The host words of a program, one command per line (R83). -/
def assemble : List (List Char) → Except AsmError (List Half)
  | [] => .ok []
  | line :: lines =>
    match assembleLine line, assemble lines with
    | .ok ws, .ok rest => .ok (ws ++ rest)
    | .error e, _ => .error e
    | .ok _, .error e => .error e

end Machine
end Sys2Proof
end

