-- ==== Sys2Proof/Machine/Flags.lean ====
section
/-! DEFINITION. The core's flags and status outputs, each a function of the state (10_state.md R34 to R37, R39). The core
has no condition codes (R39): its flags are TX_PTL and DE, which are registers, and `busy`. -/

namespace Sys2Proof.Machine

/-- The 3-bit encoding of ARB_STATE (10_state.md R30). -/
def ArbState.code : ArbState → BitVec 3
  | .listen => 0
  | .preGuard => 1
  | .sending => 2
  | .drain => 3
  | .postGuard => 4

/-- The origin bit of EV_PTL (60_exceptions.md R246). -/
def PtlOrigin.bit : PtlOrigin → Bool
  | .push => false
  | .send => true

/-- `ev.code` (60_exceptions.md R241). -/
def Event.code : Event → BitVec 3
  | .frame _ => 0
  | .cksumErr _ _ => 1
  | .overrun _ => 2
  | .ptl _ => 3
  | .txDone _ => 4
  | .illegalOp _ => 5

/-- TX_LEN as the 8-bit count of R27. -/
def State.txLen (s : State) : Byte := BitVec.ofNat 8 s.txData.length

/-- `busy` (R35). -/
def State.busy (s : State) : Bool := s.arb != .listen

/-- `utx_valid` (R37). -/
def State.utxValid (s : State) : Bool := s.arb == .sending

/-- `utx_data` (R37): the offered byte, 0x00 when none is offered. -/
def State.utxData (s : State) : Byte := if s.utxValid then byteAt s.txq s.txi else 0x00

/-- The width of `rb_level`, `bitlen(RX_BUF_DEPTH)` bits (R34). -/
def rbLevelWidth (p : Params) : Nat := bitlen p.rxBufDepth

/-- `rb_level` in its width (R34, R36). Every level that occurs fits (R36; log entry 13 for the others). -/
def State.rbLevel (s : State) : BitVec (rbLevelWidth s.params) := BitVec.ofNat _ s.rb.length

/-- The output ports of R34, R37 and R44 in their widths, but for the event channel. -/
structure Outputs (p : Params) where
  ckAcc : Half
  txhDst : Byte
  txhSrc : Byte
  txhCmd : Byte
  txLen : Byte
  txPtl : Bool
  arbState : BitVec 3
  busy : Bool
  de : Bool
  rbLevel : BitVec (rbLevelWidth p)
  utxValid : Bool
  utxData : Byte
deriving DecidableEq, Repr

/-- The continuous outputs in a state. Reading them has no side effect (R34). -/
def State.outputs (s : State) : Outputs s.params where
  ckAcc := s.ckAcc
  txhDst := s.txhDst
  txhSrc := s.txhSrc
  txhCmd := s.txhCmd
  txLen := s.txLen
  txPtl := s.txPtl
  arbState := s.arb.code
  busy := s.busy
  de := s.de
  rbLevel := s.rbLevel
  utxValid := s.utxValid
  utxData := s.utxData

end Sys2Proof.Machine
end

