-- ==== Sys2Proof/Safety.lean ====
section
/-! DEFINITION. The terms claims are stated in: the invariant of 10_state.md R41, sequences of instructions, and the
reassembler's loop as the spec writes it. -/

namespace Sys2Proof

open Machine

/-! ## The invariant -/

/-- 10_state.md R41 items 2 to 7, and R32 for GCNT: what each ARB_STATE says of DE, TXQ, TXI and GCNT. -/
def ArbInv (s : State) : Prop :=
  match s.arb with
  | .listen => s.de = false ∧ s.txq = [] ∧ s.txi = 0 ∧ s.gcnt = 0
  | .preGuard => s.de = true ∧ 1 ≤ s.gcnt ∧ s.txi = 0
  | .sending => s.de = true ∧ s.txi < s.txq.length ∧ s.gcnt = 0
  | .drain => s.de = true ∧ s.txi = s.txq.length ∧ s.gcnt = 0
  | .postGuard => s.de = true ∧ 1 ≤ s.gcnt ∧ s.txi = s.txq.length

/-- 10_state.md R41 item 8: TXQ is an encoded frame. -/
def IsEncoded (f : List Byte) : Prop :=
  ∃ dst src cmd data, encodeFrame dst src cmd data = .ok f

/-- 10_state.md R41 item 10: RB is a short tail, or a candidate that waits. -/
def RbWaits (rb : List Byte) : Prop :=
  rb.length < 4 ∨ (rb.take 4 = marker ∧ rb.length < 11) ∨
    (rb.take 4 = marker ∧ 11 ≤ rb.length ∧ rb.length < 11 + (byteAt rb 8).toNat)

/-- The invariant of 10_state.md R41, with the widths of R32 and the last corner case of 41_codec.md R133. -/
structure Inv (s : State) : Prop where
  /-- Item 1. -/
  payload : s.txData.length ≤ 255
  /-- Items 2 to 7. -/
  arbiter : ArbInv s
  /-- Item 8. -/
  snapshot : s.arb ≠ .listen → IsEncoded s.txq
  /-- Item 9. -/
  depth : s.rb.length ≤ s.params.rxBufDepth
  /-- Item 10. -/
  buffer : RbWaits s.rb
  /-- GCNT fits its GCNT_WIDTH bits (R32). -/
  width : s.gcnt < 2 ^ s.params.gcntWidth
  /-- TX_PTL is set only while the payload is full (41_codec.md R133). -/
  flag : s.txPtl = true → s.txData.length = 255

/-! ## Sequences -/

/-- Instructions one after the other, stopping at the first fault or refusal. -/
def execAll : List Instr → State → Host.Outcome State Fault Refusal
  | [], s => .next s
  | i :: is, s =>
    match exec i s with
    | .next t => execAll is t
    | .fault f => .fault f
    | .refused r => .refused r

/-- The instructions of the input events of one clock cycle, in the order of 44_control.md R233. -/
def Machine.Cycle.instrs (c : Cycle) : List Instr :=
  if c.rst then [.reset]
  else
    (if c.tick then [.tick] else []) ++ (if c.utxEmpty then [.uartEmpty] else []) ++
      (if c.utxTake then [.uartTake] else []) ++ (c.rx.map Instr.rxByte).toList ++
      (c.host.map decodeHost).toList

/-- A HOST row of the opcode table: what a host command word can be. -/
def Instr.isHostOp : Instr → Bool
  | .nop | .ckClr | .ckAdd _ | .txDst _ | .txSrc _ | .txCmd _ | .txPush _ | .txClr | .txSend | .rxFlush | .illegal _ => true
  | _ => false

/-- A request row of the opcode table. -/
def Instr.isRequest : Instr → Bool
  | .writeReg _ _ _ _ | .remoteLocal _ _ _ | .setMode _ _ _ | .runStop _ _ _ | .statusQuery _ _ => true
  | _ => false

/-- The CMD byte and payload of a request row, with its DST and SRC (30_encoding.md R81). -/
def Instr.request : Instr → Option (Byte × Byte × Byte × List Byte)
  | .writeReg dst src reg val => some (dst, src, 0x01, wrReg reg val)
  | .remoteLocal dst src remote => some (dst, src, 0x04, remoteLocalData remote)
  | .setMode dst src m => (setModeData m).map fun data => (dst, src, 0x05, data)
  | .runStop dst src start => some (dst, src, 0x06, runStopData start)
  | .statusQuery dst src => some (dst, src, 0x07, statusQueryData)
  | _ => none

/-- The state in which a request that was accepted in LISTEN leaves the core: the TX registers loaded, and the encoded frame `f`
on the line (30_encoding.md R84, 43_arbiter.md R191). -/
def requestStarted (dst src cmd : Byte) (data f : List Byte) (s : State) : State :=
  { s with
    txhDst := dst
    txhSrc := src
    txhCmd := cmd
    txData := data
    txPtl := false
    txq := f
    txi := 0
    de := true
    arb := if s.params.preGuardTicks = 0 then .sending else .preGuard
    gcnt := if s.params.preGuardTicks = 0 then s.gcnt else s.params.preGuardTicks }

/-- The events of one whole transmission of the payload in the TX registers (43_arbiter.md R200). -/
def transmission (s : State) : List Instr :=
  .txSend :: List.replicate s.params.preGuardTicks .tick ++ List.replicate (11 + s.txData.length) .uartTake ++
    .uartEmpty :: List.replicate s.params.postGuardTicks .tick

/-- Several steps of the core. -/
def steps (k : Nat) (s : State) : Host.Outcome State Fault Refusal := Host.Core.run Sys2Proof.core k s

/-! ## The reassembler's loop as 42_reassembler.md R163 writes it -/

/-- `Settles p rb evs rb'`: run on RB = `rb`, the loop of R163 emits `evs` and returns with RB = `rb'`. One rule for each
branch of the pseudocode. -/
inductive Settles (p : Params) : List Byte → List Event → List Byte → Prop where
  /-- (w1) The marker is not yet decidable. -/
  | waitMarker (rb : List Byte) (short : rb.length < 4) : Settles p rb [] rb
  /-- A garbage byte, silently discarded (R164). -/
  | garbage (b : Byte) (rb : List Byte) (evs : List Event) (rb' : List Byte) (long : 4 ≤ (b :: rb).length)
      (no : (b :: rb).take 4 ≠ marker) (go : Settles p rb evs rb') : Settles p (b :: rb) evs rb'
  /-- (w2) Shorter than a minimum frame. -/
  | waitHeader (rb : List Byte) (yes : rb.take 4 = marker) (short : rb.length < 11) : Settles p rb [] rb
  /-- (w3) Truncated: wait (R168). -/
  | waitFrame (rb : List Byte) (yes : rb.take 4 = marker) (long : 11 ≤ rb.length)
      (short : rb.length < frameLen (byteAt rb 8)) : Settles p rb [] rb
  /-- A candidate of N bytes decodes: it is reported and removed whole (R166). -/
  | accept (candidate rest : List Byte) (fr : Frame) (evs : List Event) (rb' : List Byte)
      (exact : candidate.length = frameLen (byteAt candidate 8)) (good : decodeFrame candidate = .ok fr)
      (go : Settles p rest evs rb') : Settles p (candidate ++ rest) (frameEvent p fr :: evs) rb'
  /-- A candidate of N bytes fails its checksum: it is reported and one byte is removed (R167). -/
  | resync (b : Byte) (candidate rest : List Byte) (evs : List Event) (rb' : List Byte)
      (yes : (b :: candidate).take 4 = marker) (exact : (b :: candidate).length = frameLen (byteAt (b :: candidate) 8))
      (bad : rxChecksum (b :: candidate) ≠ cks (b :: candidate)) (go : Settles p (candidate ++ rest) evs rb') :
      Settles p (b :: candidate ++ rest) (.cksumErr (rxChecksum (b :: candidate)) (cks (b :: candidate)) :: evs) rb'

end Sys2Proof
end

