-- ==== Sys2Proof/Certificates/Slice0/Obligations.lean ====
section
/-! DEFINITION. The statements about the core, for the provers. Each docstring names the rule of spec/ it formalises, or the
files it rests on. -/

open Sys2Proof Sys2Proof.Machine

/-! ## Encodings -/

/-- Decoding the encoding of any instruction that an encoding stands for gives it back, with every operand: host words
(30_encoding.md R71 to R75), input ports, and the FRAME_CMD rows inside their checksummed wire frames (R76, R81). That those rows
are read from wire frames is the model's choice (log entry 6). -/
def Obligations.DecodeEncodeRoundTrip : Prop :=
  ∀ i : Instr, i.wf = true → decode (encode i) = .ok i

/-- The decoder answers well-formed instructions only: an ILLEGAL has a reserved OP (30_encoding.md R74), and a SET_MODE has a
mode byte that 41_codec.md R143 lists. The second is the model's own reading: that FRAME_CMD rows are read from wire frames
(log entry 6), and that a frame with an unlisted mode byte is no SET_MODE (log entry 11). -/
def Obligations.DecodeAnswersWellFormed : Prop :=
  ∀ (raw : Raw) (i : Instr), decode raw = .ok i → i.wf = true

/-- A frame that decodes to a FRAME_CMD row is, byte for byte, the frame that row is encoded as: no byte of it is dropped
(log entry 6). -/
def Obligations.FrameRowsEncodeBack : Prop :=
  ∀ (bs : List Byte) (i : Instr), decode (.frame bs) = .ok i → encode i = .frame bs

/-- 30_encoding.md R74 with 44_control.md R232: the reserved OP values are the 246 outside R73; a word with one of them decodes
to ILLEGAL, changes no state and emits EV_ILLEGAL_OP with the word. -/
def Obligations.ReservedOpcodesAreReported : Prop :=
  (∀ w : Half, decode (.host w) = .ok (.illegal w) ↔
    w.toNat / 256 ∉ [0x00, 0x01, 0x02, 0x10, 0x11, 0x12, 0x13, 0x14, 0x15, 0x20]) ∧
  (∀ op : Nat, op < 256 →
    (op ∉ [0x00, 0x01, 0x02, 0x10, 0x11, 0x12, 0x13, 0x14, 0x15, 0x20] ↔
      (0x03 ≤ op ∧ op ≤ 0x0F) ∨ (0x16 ≤ op ∧ op ≤ 0x1F) ∨ 0x21 ≤ op)) ∧
  ((List.range 256).filter
    (fun op => op ∉ [0x00, 0x01, 0x02, 0x10, 0x11, 0x12, 0x13, 0x14, 0x15, 0x20])).length = 246 ∧
  (∀ (w : Half) (s : State), exec (.illegal w) s = .next { s with chan := s.chan ++ [.illegalOp w] })

/-- 30_encoding.md R75: the operations without an operand ignore IMM. -/
def Obligations.OperandlessOpsIgnoreImm : Prop :=
  ∀ imm : Byte,
    decode (.host (hostWord 0x00 imm)) = .ok .nop ∧ decode (.host (hostWord 0x01 imm)) = .ok .ckClr ∧
    decode (.host (hostWord 0x14 imm)) = .ok .txClr ∧ decode (.host (hostWord 0x15 imm)) = .ok .txSend ∧
    decode (.host (hostWord 0x20 imm)) = .ok .rxFlush

/-- 41_codec.md R121: `encode` fails above 255 data bytes, and otherwise lays the frame out with its checksum over the bytes from
0xA5 through the last data byte. -/
def Obligations.EncodeLaysOutTheFrame : Prop :=
  ∀ (dst src cmd : Byte) (data : List Byte),
    (255 < data.length → encodeFrame dst src cmd data = .error .payloadTooLarge) ∧
    (data.length ≤ 255 → ∃ f, encodeFrame dst src cmd data = .ok f ∧
      f = [0xFF, 0x00, 0xFF, 0xA5, 0x00, dst, src, cmd, BitVec.ofNat 8 data.length] ++ data ++ [hi8 (cks f), lo8 (cks f)] ∧
      cks f = sum16 ([0xA5, 0x00, dst, src, cmd, BitVec.ofNat 8 data.length] ++ data) ∧
      f.length = 11 + data.length ∧ f.take 4 = marker ∧ byteAt f 4 = 0x00 ∧ (byteAt f 8).toNat = data.length ∧
      be16 (byteAt f (9 + data.length)) (byteAt f (10 + data.length)) = cks f)

/-- 41_codec.md R123 and R124: what `decode` answers, error by error in the order of R124. -/
def Obligations.DecodeReportsTheFirstError : Prop :=
  ∀ bs : List Byte,
    (bs.length < 4 ∨ bs.take 4 ≠ [0xFF, 0x00, 0xFF, 0xA5] → decodeFrame bs = .error .noMarker) ∧
    (4 ≤ bs.length ∧ bs.take 4 = [0xFF, 0x00, 0xFF, 0xA5] →
      (bs.length < 9 ∨ bs.length < 11 + (byteAt bs 8).toNat → decodeFrame bs = .error .truncated) ∧
      (9 ≤ bs.length ∧ 11 + (byteAt bs 8).toNat < bs.length → decodeFrame bs = .error .excessBytes) ∧
      (bs.length = 11 + (byteAt bs 8).toNat →
        (be16 (byteAt bs (bs.length - 2)) (byteAt bs (bs.length - 1)) ≠ sum16 ((bs.take (bs.length - 2)).drop 3) →
          decodeFrame bs = .error .checksumMismatch) ∧
        (be16 (byteAt bs (bs.length - 2)) (byteAt bs (bs.length - 1)) = sum16 ((bs.take (bs.length - 2)).drop 3) →
          decodeFrame bs = .ok
            { version := byteAt bs 4, destination := byteAt bs 5, source := byteAt bs 6, commandId := byteAt bs 7,
              data := (bs.take (bs.length - 2)).drop 9,
              checksum := be16 (byteAt bs (bs.length - 2)) (byteAt bs (bs.length - 1)) })))

/-- `decode` accepts exactly the frames: the bytes laid out by R76 with the checksum of R102, for any VERSION
(41_codec.md R123, R125, R126). -/
def Obligations.DecodeAcceptsExactlyTheFrames : Prop :=
  ∀ (bs : List Byte) (fr : Frame), decodeFrame bs = .ok fr ↔
    fr.data.length ≤ 255 ∧ bs = frameBytes fr.version fr.destination fr.source fr.commandId fr.data ∧ fr.checksum = cks bs

/-- 41_codec.md R127: what a single corrupted byte of an encoded frame, other than its checksum bytes, makes `decode` answer. -/
def Obligations.SingleByteCorruptionIsDetected : Prop :=
  ∀ (dst src cmd : Byte) (data f : List Byte) (i : Nat) (b : Byte),
    encodeFrame dst src cmd data = .ok f → i < 9 + data.length → b ≠ byteAt f i →
    (i < 4 → decodeFrame (f.set i b) = .error .noMarker) ∧
    (4 ≤ i ∧ i ≠ 8 → decodeFrame (f.set i b) = .error .checksumMismatch) ∧
    (i = 8 ∧ data.length < b.toNat → decodeFrame (f.set i b) = .error .truncated) ∧
    (i = 8 ∧ b.toNat < data.length → decodeFrame (f.set i b) = .error .excessBytes)

/-- 41_codec.md R128: encoding a decoded frame gives its bytes back when VERSION is 0x00, and otherwise differs in the VERSION
byte and in the checksum. -/
def Obligations.ReencodingGivesTheBytesBack : Prop :=
  ∀ (bs : List Byte) (fr : Frame), decodeFrame bs = .ok fr →
    (fr.version = 0x00 → encodeFrame fr.destination fr.source fr.commandId fr.data = .ok bs) ∧
    (fr.version ≠ 0x00 → ∃ bs', encodeFrame fr.destination fr.source fr.commandId fr.data = .ok bs' ∧
      byteAt bs' 4 ≠ byteAt bs 4 ∧ rxChecksum bs' ≠ rxChecksum bs)

/-- 40_checksum.md R106 (a) and (b): the sum tells apart any two spans that differ in one byte, and no permutation. -/
def Obligations.SumDetectsOneByteNotOrder : Prop :=
  (∀ (s : List Byte) (i : Nat) (b : Byte), i < s.length → b ≠ byteAt s i → sum16 (s.set i b) ≠ sum16 s) ∧
  (∀ s t : List Byte, s.Perm t → sum16 s = sum16 t)

/-- 40_checksum.md R107: the checksum of the least frame, and of the greatest the encoder and the decoder can meet. -/
def Obligations.ChecksumWrapsAtItsGreatest : Prop :=
  cks (frameBytes 0x00 0x00 0x00 0x00 []) = 0x00A5 ∧
  cks (frameBytes 0x00 0xFF 0xFF 0xFF (List.replicate 255 0xFF)) = 0x02A2 ∧
  cks (frameBytes 0xFF 0xFF 0xFF 0xFF (List.replicate 255 0xFF)) = 0x03A1

/-- 41_codec.md R145 and R146: `parse_status`, field by field, and the fields of the source's DecodedStatus that come from it. -/
def Obligations.ParseStatusReadsTheResponse : Prop :=
  (∀ fr : Frame, fr.commandId ≠ 0x07 ∨ fr.data.length ≠ 15 → parseStatus fr = none) ∧
  (∀ (fr : Frame) (d0 d1 d2 d3 d4 d5 d6 d7 d8 d9 d10 d11 d12 d13 d14 : Byte), fr.commandId = 0x07 →
    fr.data = [d0, d1, d2, d3, d4, d5, d6, d7, d8, d9, d10, d11, d12, d13, d14] →
    ∃ r, parseStatus fr = some r ∧ r.run = d0 ∧ r.mode = d1 ∧ r.drive = d2 ∧
      r.power.toNat = d3.toNat * 256 + d4.toNat ∧ r.rpm.toNat = d5.toNat * 256 + d6.toNat ∧ r.gpm = d7 ∧ r.ppc = d8 ∧
      r.reserved0 = d9 ∧ r.errorCode = d10 ∧ r.reserved1 = d11 ∧ r.timer = d12 ∧ r.clockHour = d13 ∧ r.clockMinute = d14 ∧
      decodedStatus r =
        { runFlag := d0, operatingMode := d1, driveReady := d2, powerWatts := be16 d3 d4, speedRpm := be16 d5 d6,
          flowGpm := d7, errorCode := d10, timerRemaining := d12, clockHour := d13, clockMinute := d14 })

/-- 41_codec.md R143: the listed mode bytes, what each means, and `Invalid` for every other. That SET_MODE then ends in a
refusal is the model's reading (log entry 11). -/
def Obligations.SetModeTakesListedModesOnly : Prop :=
  (∀ m : Byte, setModeData m =
    if m.toNat ∈ [0x00, 0x01, 0x02, 0x03, 0x04, 0x05, 0x09, 0x0A, 0x0B, 0x0C] then some [m] else none) ∧
  pumpMode 0x00 = some .filter ∧ pumpMode 0x01 = some .manual ∧
  (∀ n : Nat, 1 ≤ n ∧ n ≤ 4 → pumpMode (BitVec.ofNat 8 (0x01 + n)) = some (.preset n) ∧
    pumpMode (BitVec.ofNat 8 (0x08 + n)) = some (.externalProgram n)) ∧
  (∀ (dst src m : Byte) (s : State), setModeData m = none → exec (.setMode dst src m) s = .refused (.invalidMode m))

/-- 20_memory.md R58 and 41_codec.md R151: the address classes, and the flag that is computed from them. -/
def Obligations.AddressClassesDecideForUs : Prop :=
  (∀ a : Byte,
    (a.toNat = 0x0F → addrClass a = .broadcast) ∧
    (0x10 ≤ a.toNat ∧ a.toNat ≤ 0x1F → addrClass a = .mainController) ∧
    (0x20 ≤ a.toNat ∧ a.toNat ≤ 0x2F → addrClass a = .remoteController) ∧
    (0x60 ≤ a.toNat ∧ a.toNat ≤ 0x6F → addrClass a = .pump) ∧
    (a.toNat ≤ 0x0E ∨ (0x30 ≤ a.toNat ∧ a.toNat ≤ 0x5F) ∨ 0x70 ≤ a.toNat → addrClass a = .unassigned)) ∧
  (∀ p : Params, addrClass p.ownAddr = .remoteController) ∧
  (∀ (p : Params) (fr : Frame),
    forUs p fr = true ↔ fr.destination = p.ownAddr ∨ addrClass fr.destination = .broadcast)

/-- A few words of every format, written out from the spec's encodings (30_encoding.md R71, R73, R76, R81; 10_state.md R44;
95_test_vectors.md V1, V10). That a FRAME_CMD row is read from its whole wire frame is the model's choice (log entry 6). -/
def Obligations.WrittenWordsDecode : Prop :=
  decode (.host 0x0260) = .ok (.ckAdd 0x60) ∧ decode (.host 0x13DC) = .ok (.txPush 0xDC) ∧
  decode (.host 0x15FF) = .ok .txSend ∧ decode (.host 0x2100) = .ok (.illegal 0x2100) ∧
  decode (.rx 0xA5) = .ok (.rxByte 0xA5) ∧
  decode (.frame [0xFF, 0x00, 0xFF, 0xA5, 0x00, 0x60, 0x20, 0x07, 0x00, 0x01, 0x2C]) = .ok (.statusQuery 0x60 0x20) ∧
  decode (.frame [0xFF, 0x00, 0xFF, 0xA5, 0x00, 0x60, 0x20, 0x01, 0x04, 0x03, 0x21, 0x05, 0xDC, 0x02, 0x2F]) =
    .ok (.writeReg 0x60 0x20 0x0321 0x05DC)

/-- 30_encoding.md R83, its own example, and the third program of 95_test_vectors.md. -/
def Obligations.AssemblerWritesTheExamples : Prop :=
  assembleLine "CK_ADD 0xA5".toList = .ok [0x02A5] ∧
  assembleLine "WRITE_REG 0x60, 0x20, 0x0321, 0x05DC ; V10".toList =
    .ok [0x1400, 0x1060, 0x1120, 0x1201, 0x1303, 0x1321, 0x1305, 0x13DC, 0x1500] ∧
  assembleLine "TX_PUSH 256".toList = .error .badOperand ∧ assembleLine "NOP 1".toList = .error .operandCount

/-! ## Host operations -/

/-- 44_control.md R231. -/
def Obligations.NopChangesNothing : Prop :=
  (∀ w : Half, w.toNat ≤ 0x00FF → decode (.host w) = .ok .nop) ∧ ∀ s : State, exec .nop s = .next s

/-- 40_checksum.md R103. -/
def Obligations.CkClrClearsTheAccumulator : Prop :=
  (∀ imm : Byte, decode (.host (hostWord 0x01 imm)) = .ok .ckClr) ∧
  ∀ s : State, exec .ckClr s = .next { s with ckAcc := 0x0000 }

/-- 40_checksum.md R104. -/
def Obligations.CkAddAddsModulo : Prop :=
  ∀ (imm : Byte) (s : State),
    decode (.host (hostWord 0x02 imm)) = .ok (.ckAdd imm) ∧
    ∃ x : Half, exec (.ckAdd imm) s = .next { s with ckAcc := x } ∧ x.toNat = (s.ckAcc.toNat + imm.toNat) % 65536

/-- CK_CLR and then CK_ADD of the bytes of `bs` in any order leave their sum (40_checksum.md R105). -/
def Obligations.AccumulatorSumsTheBytes : Prop :=
  ∀ (bs bs' : List Byte) (s : State), bs.Perm bs' →
    execAll (.ckClr :: bs'.map Instr.ckAdd) s = .next { s with ckAcc := sum16 bs } ∧
    (sum16 bs).toNat = (bs.map BitVec.toNat).sum % 65536

/-- 41_codec.md R130 to R132. -/
def Obligations.TxHeaderRegistersAreWritten : Prop :=
  ∀ (imm : Byte) (s : State),
    (decode (.host (hostWord 0x10 imm)) = .ok (.txDst imm) ∧ exec (.txDst imm) s = .next { s with txhDst := imm }) ∧
    (decode (.host (hostWord 0x11 imm)) = .ok (.txSrc imm) ∧ exec (.txSrc imm) s = .next { s with txhSrc := imm }) ∧
    (decode (.host (hostWord 0x12 imm)) = .ok (.txCmd imm) ∧ exec (.txCmd imm) s = .next { s with txhCmd := imm })

/-- 41_codec.md R133. -/
def Obligations.TxPushAppendsOrFlags : Prop :=
  ∀ (imm : Byte) (s : State),
    decode (.host (hostWord 0x13 imm)) = .ok (.txPush imm) ∧
    (s.txData.length < 255 → exec (.txPush imm) s = .next { s with txData := s.txData ++ [imm] }) ∧
    (255 ≤ s.txData.length → exec (.txPush imm) s = .next { s with txPtl := true, chan := s.chan ++ [.ptl .push] })

/-- 41_codec.md R134. -/
def Obligations.TxClrEmptiesThePayload : Prop :=
  (∀ imm : Byte, decode (.host (hostWord 0x14 imm)) = .ok .txClr) ∧
  ∀ s : State, exec .txClr s = .next { s with txData := [], txPtl := false }

/-- 43_arbiter.md R191 to R193: a busy TX_SEND is the model fault MF_SEND_BUSY, whatever TX_PTL; in LISTEN a set TX_PTL refuses
it; otherwise the encoded frame is put on the line, with the pre-transmit guard if there is one. -/
def Obligations.TxSendFaultsRefusesOrStarts : Prop :=
  (∀ imm : Byte, decode (.host (hostWord 0x15 imm)) = .ok .txSend) ∧
  ∀ s : State,
    (s.arb ≠ .listen → exec .txSend s = .fault (.sendBusy s.arb)) ∧
    (s.arb = .listen ∧ s.txPtl = true → exec .txSend s = .next { s with chan := s.chan ++ [.ptl .send] }) ∧
    (s.arb = .listen ∧ s.txPtl = false ∧ s.txData.length ≤ 255 →
      ∃ f, encodeFrame s.txhDst s.txhSrc s.txhCmd s.txData = .ok f ∧
        (s.params.preGuardTicks = 0 →
          exec .txSend s = .next { s with txq := f, txi := 0, de := true, arb := .sending }) ∧
        (0 < s.params.preGuardTicks →
          exec .txSend s =
            .next { s with txq := f, txi := 0, de := true, arb := .preGuard, gcnt := s.params.preGuardTicks }))

/-- 42_reassembler.md R169. -/
def Obligations.RxFlushEmptiesTheBuffer : Prop :=
  (∀ imm : Byte, decode (.host (hostWord 0x20 imm)) = .ok .rxFlush) ∧
  ∀ s : State, exec .rxFlush s = .next { s with rb := [] }

/-- NOP, CK_CLR, RX_FLUSH, TX_CLR and the header writes are idempotent (20_memory.md R57). -/
def Obligations.ClearsAndWritesAreIdempotent : Prop :=
  ∀ (i : Instr) (imm : Byte) (s : State), i ∈ [.nop, .ckClr, .rxFlush, .txClr, .txDst imm, .txSrc imm, .txCmd imm] →
    ∃ t, exec i s = .next t ∧ exec i t = .next t

/-! ## Input events -/

/-- 70_reset_and_hazards.md R270 and 10_state.md R40: every state element takes its reset value, no event is emitted, and every
other event of the cycle is discarded. That the model's own fields stay is its choice (log entries 1 to 3). -/
def Obligations.ResetWritesEveryElement : Prop :=
  (∀ s : State, exec .reset s = .next
    { ckAcc := 0x0000, txhDst := 0x00, txhSrc := 0x00, txhCmd := 0x00, txData := [], txPtl := false, txq := [], txi := 0,
      arb := .listen, de := false, gcnt := 0, rb := [], params := s.params, pending := s.pending, chan := s.chan }) ∧
  (∀ (s : State) (c : Cycle) (rest : List Input), c.rst = true → s.pending = .cycle c :: rest →
    step s = exec .reset { s with pending := rest })

/-- 43_arbiter.md R195 and 60_exceptions.md R252. -/
def Obligations.UartTakeAdvancesOrFaults : Prop :=
  decode .utxTake = .ok .uartTake ∧
  ∀ s : State,
    (s.arb ≠ .sending → exec .uartTake s = .fault (.uartTake s.arb)) ∧
    (s.arb = .sending ∧ s.txi + 1 = s.txq.length →
      exec .uartTake s = .next { s with txi := s.txi + 1, arb := .drain }) ∧
    (s.arb = .sending ∧ s.txi + 1 ≠ s.txq.length → exec .uartTake s = .next { s with txi := s.txi + 1 })

/-- 43_arbiter.md R197. -/
def Obligations.UartEmptyEndsTheDrain : Prop :=
  decode .utxEmpty = .ok .uartEmpty ∧
  ∀ s : State,
    (s.arb = .drain ∧ s.params.postGuardTicks = 0 →
      exec .uartEmpty s = .next
        { s with
          arb := .listen, de := false, txq := [], txi := 0
          chan := s.chan ++ [.txDone (BitVec.ofNat 9 s.txq.length)] }) ∧
    (s.arb = .drain ∧ 0 < s.params.postGuardTicks →
      exec .uartEmpty s = .next { s with arb := .postGuard, gcnt := s.params.postGuardTicks }) ∧
    (s.arb ≠ .drain → exec .uartEmpty s = .next s)

/-- 43_arbiter.md R196, for the guard counts that occur (GCNT >= 1 in a guard state, 10_state.md R32). -/
def Obligations.TickCountsTheGuards : Prop :=
  decode .tick = .ok .tick ∧
  ∀ s : State,
    (s.arb = .preGuard ∧ s.gcnt = 1 → exec .tick s = .next { s with gcnt := 0, arb := .sending }) ∧
    (s.arb = .postGuard ∧ s.gcnt = 1 →
      exec .tick s = .next
        { s with
          gcnt := 0, arb := .listen, de := false, txq := [], txi := 0
          chan := s.chan ++ [.txDone (BitVec.ofNat 9 s.txq.length)] }) ∧
    ((s.arb = .preGuard ∨ s.arb = .postGuard) ∧ 1 < s.gcnt → exec .tick s = .next { s with gcnt := s.gcnt - 1 }) ∧
    (s.arb = .listen ∨ s.arb = .sending ∨ s.arb = .drain → exec .tick s = .next s)

/-- 42_reassembler.md R161 to R163: outside LISTEN the byte is discarded; in LISTEN it is appended, the oldest byte being dropped
and reported when the buffer is full, and the loop of R163 (`Settles`) runs to completion. -/
def Obligations.RxByteAppendsAndSettles : Prop :=
  ∀ (b : Byte) (s : State),
    decode (.rx b) = .ok (.rxByte b) ∧
    (s.arb ≠ .listen → exec (.rxByte b) s = .next s) ∧
    (s.arb = .listen ∧ s.rb.length ≠ s.params.rxBufDepth →
      ∃ evs rb', Settles s.params (s.rb ++ [b]) evs rb' ∧
        exec (.rxByte b) s = .next { s with rb := rb', chan := s.chan ++ evs }) ∧
    (s.arb = .listen ∧ s.rb.length = s.params.rxBufDepth →
      ∃ evs rb', Settles s.params (s.rb.drop 1 ++ [b]) evs rb' ∧
        exec (.rxByte b) s = .next { s with rb := rb', chan := s.chan ++ .overrun (byteAt s.rb 0) :: evs })

/-- The function that the step computes is the loop of 42_reassembler.md R163, and that loop has one outcome. -/
def Obligations.SettleComputesTheLoop : Prop :=
  ∀ (p : Params) (rb : List Byte) (evs : List Event) (rb' : List Byte),
    Settles p rb evs rb' ↔ settle p rb = (evs, rb')

/-! ## FRAME_CMD rows -/

/-- In LISTEN each request loads the TX registers and puts its frame on the line (30_encoding.md R84; 41_codec.md R140 to R144).
That a request is run whole in one step is the model's choice (log entry 4). -/
def Obligations.RequestsPutTheirFrameOnTheLine : Prop :=
  ∀ (dst src : Byte) (s : State), s.arb = .listen →
    (∀ reg val : Half, ∃ f, encodeFrame dst src 0x01 [hi8 reg, lo8 reg, hi8 val, lo8 val] = .ok f ∧
      exec (.writeReg dst src reg val) s =
        .next (requestStarted dst src 0x01 [hi8 reg, lo8 reg, hi8 val, lo8 val] f s)) ∧
    (∃ f, encodeFrame dst src 0x04 [0xFF] = .ok f ∧
      exec (.remoteLocal dst src true) s = .next (requestStarted dst src 0x04 [0xFF] f s)) ∧
    (∃ f, encodeFrame dst src 0x04 [0x00] = .ok f ∧
      exec (.remoteLocal dst src false) s = .next (requestStarted dst src 0x04 [0x00] f s)) ∧
    (∀ m : Byte, m.toNat ∈ [0x00, 0x01, 0x02, 0x03, 0x04, 0x05, 0x09, 0x0A, 0x0B, 0x0C] →
      ∃ f, encodeFrame dst src 0x05 [m] = .ok f ∧
        exec (.setMode dst src m) s = .next (requestStarted dst src 0x05 [m] f s)) ∧
    (∃ f, encodeFrame dst src 0x06 [0x0A] = .ok f ∧
      exec (.runStop dst src true) s = .next (requestStarted dst src 0x06 [0x0A] f s)) ∧
    (∃ f, encodeFrame dst src 0x06 [0x04] = .ok f ∧
      exec (.runStop dst src false) s = .next (requestStarted dst src 0x06 [0x04] f s)) ∧
    (∃ f, encodeFrame dst src 0x07 [] = .ok f ∧
      exec (.statusQuery dst src) s = .next (requestStarted dst src 0x07 [] f s))

/-- A request ends in TX_SEND, so outside LISTEN it is the model fault MF_SEND_BUSY (43_arbiter.md R193). -/
def Obligations.RequestsFaultWhileBusy : Prop :=
  ∀ (i : Instr) (s : State), i.request.isSome = true → s.arb ≠ .listen → exec i s = .fault (.sendBusy s.arb)

/-- A request run in one step (log entry 4) is its pseudo-instruction run as 30_encoding.md R84 expands it: one host command a
step, whatever the outcome. -/
def Obligations.RequestIsItsHostWords : Prop :=
  ∀ (i : Instr) (ps : Pseudo) (words : List Half) (s : State) (rest : List Input),
    requestPseudo i = some ps → expand ps = .ok words →
    steps words.length { s with pending := words.map (fun w => Input.cycle (Cycle.hostOnly w)) ++ rest } =
      exec i { s with pending := rest }

/-- A status response that arrives whole on an idle, listening line is reported by one EV_FRAME, from which `parse_status` reads
it back (41_codec.md R145; 95_test_vectors.md P2); while transmitting it is discarded; in every state it completes and changes
RB and the event channel only. That the row is a reception is the model's choice (log entry 5). -/
def Obligations.StatusResponseIsDelivered : Prop :=
  ∀ (version dst src : Byte) (r : StatusRecord) (s : State),
    (s.arb = .listen ∧ s.rb = [] ∧ 26 ≤ s.params.rxBufDepth →
      ∃ fr, fr.version = version ∧ fr.destination = dst ∧ fr.source = src ∧ parseStatus fr = some r ∧
        exec (.statusResponse version dst src r) s = .next { s with chan := s.chan ++ [frameEvent s.params fr] }) ∧
    (s.arb ≠ .listen → exec (.statusResponse version dst src r) s = .next s) ∧
    (∃ rb evs, exec (.statusResponse version dst src r) s = .next { s with rb := rb, chan := s.chan ++ evs })

/-! ## Steps and inputs -/

/-- A step with one input event presented runs the instruction that event decodes to; an input that is no instruction is refused
(log entry 7). -/
def Obligations.StepRunsTheDecodedInstruction : Prop :=
  ∀ (raw : Raw) (s : State) (rest : List Input), s.pending = Input.only raw :: rest →
    (∀ i, decode raw = .ok i → step s = exec i { s with pending := rest }) ∧
    (∀ e, decode raw = .error e → step s = .refused (.undecoded e))

/-- No part of the core steps without an input event (00_scope.md R7); an empty cycle passes (log entry 10). -/
def Obligations.IdleStepChangesNothing : Prop :=
  (∀ s : State, s.pending = [] → step s = .next s) ∧
  (∀ (s : State) (rest : List Input), s.pending = .cycle Cycle.idle :: rest → step s = .next { s with pending := rest })

/-- 44_control.md R233: the events of one cycle are separate steps in the order RESET (which discards the others), TICK,
UART_EMPTY, UART_TAKE, RX_BYTE, HOST_OP. How a cycle is presented is the model's choice (log entry 1). -/
def Obligations.SameCycleEventsAreOrdered : Prop :=
  ∀ (c : Cycle) (rest : List Input) (s : State), c.instrs ≠ [] →
    steps c.instrs.length { s with pending := .cycle c :: rest } = execAll c.instrs { s with pending := rest }

/-- The status outputs of 10_state.md R34 in their widths, `rb_level` in its `bitlen(RX_BUF_DEPTH)` bits (what bitlen is: log
entry 14), `busy` (R35), `rb_level` (R36) and the UART offer (R37). -/
def Obligations.OutputsShowTheState : Prop :=
  ∀ s : State,
    s.outputs.ckAcc = s.ckAcc ∧ s.outputs.txhDst = s.txhDst ∧ s.outputs.txhSrc = s.txhSrc ∧ s.outputs.txhCmd = s.txhCmd ∧
    (s.txData.length ≤ 255 → s.outputs.txLen.toNat = s.txData.length) ∧ s.outputs.txPtl = s.txPtl ∧ s.outputs.de = s.de ∧
    (s.rb.length ≤ s.params.rxBufDepth →
      s.rb.length < 2 ^ bitlen s.params.rxBufDepth ∧ s.outputs.rbLevel.toNat = s.rb.length) ∧
    (s.outputs.busy = true ↔ s.arb ≠ .listen) ∧
    (s.outputs.utxValid = true ↔ s.arb = .sending) ∧ (s.arb = .sending → s.outputs.utxData = byteAt s.txq s.txi) ∧
    (s.arb ≠ .sending → s.outputs.utxData = 0x00) ∧
    (s.outputs.arbState.toNat = match s.arb with
      | .listen => 0 | .preGuard => 1 | .sending => 2 | .drain => 3 | .postGuard => 4)

/-! ## Invariants and whole-machine rules -/

/-- Every step keeps the invariant of 10_state.md R41, from every state that has it. -/
def Obligations.StepKeepsTheInvariant : Prop :=
  ∀ s t : State, Inv s → step s = .next t → Inv t

/-- The reset state of every instance has the invariant. -/
def Obligations.ResetMeetsTheInvariant : Prop :=
  (∀ p : Params, Inv (State.resetWith p)) ∧ Inv State.reset

/-- No step withdraws an emitted event (60_exceptions.md R240) or changes a parameter (70_reset_and_hazards.md R274). -/
def Obligations.EventsAreNeverWithdrawn : Prop :=
  ∀ s t : State, step s = .next t → s.chan <+: t.chan ∧ t.params = s.params

/-- The model faults are exactly MF_SEND_BUSY and MF_UART_TAKE, with the ARB_STATE recorded (60_exceptions.md R250 to R252).
That a request faults as its TX_SEND does rests on log entry 4. -/
def Obligations.FaultsAreExactlyTheTwo : Prop :=
  ∀ (i : Instr) (s : State) (f : Fault), exec i s = .fault f ↔
    ((i = .txSend ∨ i.request.isSome = true) ∧ s.arb ≠ .listen ∧ f = .sendBusy s.arb) ∨
    (i = .uartTake ∧ s.arb ≠ .sending ∧ f = .uartTake s.arb)

/-- The one instruction that is ever refused is SET_MODE with a byte for which `set_mode` is Invalid (log entry 11): every
well-formed instruction runs or faults. -/
def Obligations.OnlyInvalidModesAreRefused : Prop :=
  (∀ (i : Instr) (s : State) (r : Refusal), exec i s = .refused r ↔
    ∃ dst src m, i = .setMode dst src m ∧ setModeData m = none ∧ r = .invalidMode m) ∧
  (∀ (i : Instr) (s : State) (r : Refusal), i.wf = true → exec i s ≠ .refused r)

/-- Which instructions write each element of the state tuple (10_state.md R23 to R33). A request writes what its host commands
write (log entry 4), a status response what its RX_BYTEs write (log entry 5). -/
def Obligations.RegistersHaveTheirWritersOnly : Prop :=
  ∀ (i : Instr) (s t : State), exec i s = .next t →
    (t.ckAcc ≠ s.ckAcc → i = .ckClr ∨ (∃ imm, i = .ckAdd imm) ∨ i = .reset) ∧
    (t.txhDst ≠ s.txhDst → (∃ imm, i = .txDst imm) ∨ i.isRequest = true ∨ i = .reset) ∧
    (t.txhSrc ≠ s.txhSrc → (∃ imm, i = .txSrc imm) ∨ i.isRequest = true ∨ i = .reset) ∧
    (t.txhCmd ≠ s.txhCmd → (∃ imm, i = .txCmd imm) ∨ i.isRequest = true ∨ i = .reset) ∧
    (t.txData ≠ s.txData → (∃ imm, i = .txPush imm) ∨ i = .txClr ∨ i.isRequest = true ∨ i = .reset) ∧
    (t.txPtl = true ∧ s.txPtl = false → ∃ imm, i = .txPush imm) ∧
    (t.txPtl = false ∧ s.txPtl = true → i = .txClr ∨ i.isRequest = true ∨ i = .reset) ∧
    (t.txq ≠ s.txq → i = .txSend ∨ i.isRequest = true ∨ i = .uartEmpty ∨ i = .tick ∨ i = .reset) ∧
    (t.txi ≠ s.txi → i = .txSend ∨ i.isRequest = true ∨ i = .uartTake ∨ i = .uartEmpty ∨ i = .tick ∨ i = .reset) ∧
    (t.arb ≠ s.arb → i = .txSend ∨ i.isRequest = true ∨ i = .uartTake ∨ i = .uartEmpty ∨ i = .tick ∨ i = .reset) ∧
    (t.de = true ∧ s.de = false → i = .txSend ∨ i.isRequest = true) ∧
    (t.de = false ∧ s.de = true → i = .uartEmpty ∨ i = .tick ∨ i = .reset) ∧
    (t.gcnt ≠ s.gcnt → i = .txSend ∨ i.isRequest = true ∨ i = .uartEmpty ∨ i = .tick ∨ i = .reset) ∧
    (t.rb ≠ s.rb → (∃ b, i = .rxByte b) ∨ i = .rxFlush ∨ (∃ v dst src r, i = .statusResponse v dst src r) ∨ i = .reset)

/-- The arbiter changes state only along the table of 43_arbiter.md R190: every other pair of state and event leaves it.
The invariant gives GCNT >= 1 in a guard, so a TICK ends it at GCNT = 1 only. A request is its TX_SEND (log entry 4). -/
def Obligations.ArbiterFollowsItsTable : Prop :=
  ∀ (i : Instr) (s t : State), Inv s → exec i s = .next t → t.arb ≠ s.arb →
    (s.arb = .listen ∧ (i = .txSend ∧ s.txPtl = false ∨ i.isRequest = true) ∧
      t.arb = if s.params.preGuardTicks = 0 then .sending else .preGuard) ∨
    (s.arb = .preGuard ∧ i = .tick ∧ s.gcnt = 1 ∧ t.arb = .sending) ∨
    (s.arb = .sending ∧ i = .uartTake ∧ s.txi + 1 = s.txq.length ∧ t.arb = .drain) ∨
    (s.arb = .drain ∧ i = .uartEmpty ∧ t.arb = if s.params.postGuardTicks = 0 then .listen else .postGuard) ∨
    (s.arb = .postGuard ∧ i = .tick ∧ s.gcnt = 1 ∧ t.arb = .listen) ∨
    (i = .reset ∧ t.arb = .listen)

/-- During a transmission the frame on the line is never changed, and the host commands other than TX_SEND change only the
registers for the next frame (20_memory.md R67). -/
def Obligations.TransmissionIsIsolated : Prop :=
  (∀ (i : Instr) (s t : State), s.arb ≠ .listen → i ≠ .reset → exec i s = .next t → t.arb ≠ .listen → t.txq = s.txq) ∧
  (∀ (i : Instr) (s t : State), i.isHostOp = true → i ≠ .txSend → exec i s = .next t →
    t.txq = s.txq ∧ t.txi = s.txi ∧ t.arb = s.arb ∧ t.de = s.de ∧ t.gcnt = s.gcnt)

/-- EV_TX_DONE is emitted exactly at the steps, other than RESET, that return the arbiter to LISTEN, with the number of bytes of
the frame (43_arbiter.md R199). -/
def Obligations.TxDoneMarksTheReturnToListen : Prop :=
  ∀ (i : Instr) (s t : State) (evs : List Event) (n : BitVec 9), exec i s = .next t → t.chan = s.chan ++ evs →
    (Event.txDone n ∈ evs ↔
      s.arb ≠ .listen ∧ t.arb = .listen ∧ i ≠ .reset ∧ n = BitVec.ofNat 9 s.txq.length)

/-- A whole transmission (43_arbiter.md R200): PRE_GUARD_TICKS TICKs, one UART_TAKE for each byte of the frame, UART_EMPTY,
POST_GUARD_TICKS TICKs. It ends in LISTEN with one EV_TX_DONE and every register as it was; before its last event the line stays
driven. -/
def Obligations.TransmissionRunsToItsEnd : Prop :=
  ∀ s : State, Inv s → s.arb = .listen → s.txPtl = false →
    execAll (transmission s) s =
      .next { s with chan := s.chan ++ [.txDone (BitVec.ofNat 9 (11 + s.txData.length))] } ∧
    ∀ k, 1 ≤ k → k < (transmission s).length →
      ∃ t, execAll ((transmission s).take k) s = .next t ∧ t.arb ≠ .listen ∧ t.de = true ∧ t.chan = s.chan

/-- After the guard and `k` UART_TAKEs the byte offered is byte `k` of the encoded frame (43_arbiter.md R194). -/
def Obligations.BytesAreOfferedInOrder : Prop :=
  ∀ (s : State) (f : List Byte) (k : Nat), Inv s → s.arb = .listen → s.txPtl = false →
    encodeFrame s.txhDst s.txhSrc s.txhCmd s.txData = .ok f → k < f.length →
    ∃ t, execAll (.txSend :: List.replicate s.params.preGuardTicks .tick ++ List.replicate k .uartTake) s = .next t ∧
      t.utxValid = true ∧ t.utxData = byteAt f k ∧ t.txq = f

/-! ## The reassembler over streams -/

/-- With RX_BUF_DEPTH of 266 or more no byte overruns the buffer (42_reassembler.md R174). -/
def Obligations.NoOverrunAtFullDepth : Prop :=
  ∀ (b d : Byte) (s t : State) (evs : List Event), Inv s → 266 ≤ s.params.rxBufDepth →
    exec (.rxByte b) s = .next t → t.chan = s.chan ++ evs → Event.overrun d ∉ evs

/-- Fragmentation invariance (42_reassembler.md R172): bytes fed one a step emit, when no EV_OVERRUN occurs, exactly what one
settle of the whole stream emits, and leave the same RB. -/
def Obligations.FragmentationDoesNotMatter : Prop :=
  ∀ (bs : List Byte) (s t : State) (evs : List Event), s.arb = .listen → RbWaits s.rb →
    execAll (bs.map Instr.rxByte) s = .next t → t.chan = s.chan ++ evs → (∀ d, Event.overrun d ∉ evs) →
    evs = (settle s.params (s.rb ++ bs)).1 ∧ t = { s with rb := (settle s.params (s.rb ++ bs)).2, chan := t.chan }

/-- The desync scenario (42_reassembler.md R173): a frame, a false marker, a second frame. Exactly the two frames and one
EV_CKSUM_ERR between them are emitted, unless the second frame goes from 0x48 to 0x03: then the false candidate verifies and is
emitted instead. -/
def Obligations.DesyncIsRecovered : Prop :=
  ∀ (s : State) (f1 f2 : List Byte) (fr1 fr2 : Frame), s.arb = .listen → s.rb = [] → 266 ≤ s.params.rxBufDepth →
    encodeFrame fr1.destination fr1.source fr1.commandId fr1.data = .ok f1 → decodeFrame f1 = .ok fr1 →
    encodeFrame fr2.destination fr2.source fr2.commandId fr2.data = .ok f2 → decodeFrame f2 = .ok fr2 →
    ((fr2.destination, fr2.source) ≠ (0x03, 0x48) →
      execAll ((f1 ++ marker ++ f2).map Instr.rxByte) s = .next
        { s with
          chan := s.chan ++ [frameEvent s.params fr1, .cksumErr (be16 fr2.destination fr2.source) 0x0348,
            frameEvent s.params fr2] }) ∧
    ((fr2.destination, fr2.source) = (0x03, 0x48) →
      ∃ rb evs, execAll ((f1 ++ marker ++ f2).map Instr.rxByte) s = .next
        { s with
          rb := rb
          chan := s.chan ++ frameEvent s.params fr1 :: frameEvent s.params
            { version := 0xFF, destination := 0x00, source := 0xFF, commandId := 0xA5, data := [], checksum := 0x0348 } ::
            evs })

/-- A frame longer than RX_BUF_DEPTH is never emitted (42_reassembler.md R175). -/
def Obligations.FramesFitTheBuffer : Prop :=
  ∀ (b : Byte) (s t : State) (evs : List Event) (fe : FrameEvent), s.rb.length ≤ s.params.rxBufDepth →
    exec (.rxByte b) s = .next t → t.chan = s.chan ++ evs → Event.frame fe ∈ evs →
    11 + fe.data.length ≤ s.params.rxBufDepth ∧ fe.len.toNat = fe.data.length

/-- What a received byte can make the core report: a dropped byte, a frame that lies whole in the buffer and verifies, with the
`for_us` flag of 41_codec.md R151, or a mismatch of two different sums (42_reassembler.md R166, 60_exceptions.md R243). -/
def Obligations.ReportedEventsAreSound : Prop :=
  ∀ (b : Byte) (s t : State) (evs : List Event), exec (.rxByte b) s = .next t → t.chan = s.chan ++ evs → ∀ e ∈ evs,
    (e = .overrun (byteAt s.rb 0) ∧ s.rb.length = s.params.rxBufDepth) ∨
    (∃ bs fr, bs <:+: s.rb ++ [b] ∧ decodeFrame bs = .ok fr ∧ e = .frame
      { version := fr.version, destination := fr.destination, source := fr.source, commandId := fr.commandId,
        len := BitVec.ofNat 8 fr.data.length, data := fr.data, checksum := fr.checksum,
        forUs := decide (fr.destination = s.params.ownAddr ∨ fr.destination = 0x0F) }) ∨
    (∃ received computed, received ≠ computed ∧ e = .cksumErr received computed)

/-- One received byte emits at most RX_BUF_DEPTH + 1 events, the EV_OVERRUN, if any, first (42_reassembler.md R170,
60_exceptions.md R254). -/
def Obligations.EventsOfAByteAreBounded : Prop :=
  ∀ (b : Byte) (s t : State) (evs : List Event), s.rb.length ≤ s.params.rxBufDepth →
    exec (.rxByte b) s = .next t → t.chan = s.chan ++ evs →
    evs.length ≤ s.params.rxBufDepth + 1 ∧ ∀ d, Event.overrun d ∉ evs.drop 1

/-! ## The event channel -/

/-- The codes of 60_exceptions.md R241 and the origin bit of R246. -/
def Obligations.EventCodesFollowTheTable : Prop :=
  (∀ f : FrameEvent, (Event.frame f).code = 0) ∧ (∀ a b : Half, (Event.cksumErr a b).code = 1) ∧
  (∀ b : Byte, (Event.overrun b).code = 2) ∧ (∀ o : PtlOrigin, (Event.ptl o).code = 3) ∧
  (∀ n : BitVec 9, (Event.txDone n).code = 4) ∧ (∀ w : Half, (Event.illegalOp w).code = 5) ∧
  (∀ e : Event, e.code.toNat < 6) ∧ PtlOrigin.push.bit = false ∧ PtlOrigin.send.bit = true

/-- A step other than a reception emits at most one event (60_exceptions.md R254). -/
def Obligations.OtherStepsEmitAtMostOneEvent : Prop :=
  ∀ (i : Instr) (s t : State) (evs : List Event), (∀ b, i ≠ .rxByte b) → (∀ v dst src r, i ≠ .statusResponse v dst src r) →
    exec i s = .next t → t.chan = s.chan ++ evs → evs.length ≤ 1
end

