-- ==== Sys2Proof/Laws/Codec.lean ====
section
/-! SUPPORT. What the byte-order helpers, the checksum and the bytes of a frame say, once. -/

namespace Sys2Proof.Machine

/-! ## Byte order -/

theorem hi8_toNat (x : Half) : (hi8 x).toNat = x.toNat / 256 := by
  have := x.isLt
  simp [hi8, BitVec.extractLsb'_toNat, Nat.shiftRight_eq_div_pow]
  omega

theorem lo8_toNat (x : Half) : (lo8 x).toNat = x.toNat % 256 := by
  simp [lo8, BitVec.extractLsb'_toNat]

theorem be16_toNat (a b : Byte) : (be16 a b).toNat = a.toNat * 256 + b.toNat := by
  unfold be16
  rw [BitVec.toNat_append, Nat.shiftLeft_eq, Nat.mul_comm, ← Nat.two_pow_add_eq_or_of_lt b.isLt]

@[simp] theorem be16_hi8_lo8 (x : Half) : be16 (hi8 x) (lo8 x) = x := by
  apply BitVec.eq_of_toNat_eq
  rw [be16_toNat, hi8_toNat, lo8_toNat]
  omega

@[simp] theorem hi8_be16 (a b : Byte) : hi8 (be16 a b) = a := by
  apply BitVec.eq_of_toNat_eq
  have := b.isLt
  rw [hi8_toNat, be16_toNat]
  omega

@[simp] theorem lo8_be16 (a b : Byte) : lo8 (be16 a b) = b := by
  apply BitVec.eq_of_toNat_eq
  have := b.isLt
  rw [lo8_toNat, be16_toNat]
  omega

theorem be16_inj {a b c d : Byte} (h : be16 a b = be16 c d) : a = c ∧ b = d := by
  constructor
  · simpa using congrArg hi8 h
  · simpa using congrArg lo8 h

/-! ## Indexing -/

theorem byteAt_append_left {a : List Byte} (b : List Byte) {i : Nat} (h : i < a.length) :
    byteAt (a ++ b) i = byteAt a i := by
  simp [byteAt, List.getD_eq_getElem?_getD, List.getElem?_append_left h]

theorem byteAt_append_right (a b : List Byte) (i : Nat) : byteAt (a ++ b) (a.length + i) = byteAt b i := by
  simp [byteAt, List.getD_eq_getElem?_getD, List.getElem?_append_right]

theorem byteAt_take (l : List Byte) {n i : Nat} (h : i < n) : byteAt (l.take n) i = byteAt l i := by
  simp [byteAt, List.getD_eq_getElem?_getD, h]

/-! ## Checksum -/

@[simp] theorem sum16_nil : sum16 [] = 0 := rfl

theorem sum16_append (s t : List Byte) : sum16 (s ++ t) = sum16 s + sum16 t := by
  simp [sum16, BitVec.ofNat_add]

theorem sum16_cons (b : Byte) (s : List Byte) : sum16 (b :: s) = b.setWidth 16 + sum16 s := by
  simp only [sum16, List.map_cons, List.sum_cons, BitVec.ofNat_add]
  congr 1
  apply BitVec.eq_of_toNat_eq
  simp

/-! ## The bytes of a frame -/

variable (version dst src cmd : Byte) (data : List Byte)

/-- The checksum a frame carries. -/
theorem frameBytes_eq :
    frameBytes version dst src cmd data =
      [0xFF, 0x00, 0xFF, 0xA5, version, dst, src, cmd, BitVec.ofNat 8 data.length] ++ data ++
        [hi8 (sum16 ([0xA5, version, dst, src, cmd, BitVec.ofNat 8 data.length] ++ data)),
          lo8 (sum16 ([0xA5, version, dst, src, cmd, BitVec.ofNat 8 data.length] ++ data))] := by
  simp [frameBytes]

@[simp] theorem frameBytes_length : (frameBytes version dst src cmd data).length = 11 + data.length := by
  simp [frameBytes_eq]; omega

@[simp] theorem frameBytes_take4 : (frameBytes version dst src cmd data).take 4 = marker := by
  simp [frameBytes_eq, marker]

@[simp] theorem frameBytes_version : byteAt (frameBytes version dst src cmd data) 4 = version := rfl
@[simp] theorem frameBytes_dst : byteAt (frameBytes version dst src cmd data) 5 = dst := rfl
@[simp] theorem frameBytes_src : byteAt (frameBytes version dst src cmd data) 6 = src := rfl
@[simp] theorem frameBytes_cmd : byteAt (frameBytes version dst src cmd data) 7 = cmd := rfl
@[simp] theorem frameBytes_len :
    byteAt (frameBytes version dst src cmd data) 8 = BitVec.ofNat 8 data.length := rfl

theorem len_toNat (h : data.length ≤ 255) : (BitVec.ofNat 8 data.length).toNat = data.length := by
  simp; omega

/-- The checksum span of a frame (40_checksum.md R101): its bytes from 0xA5 through the last data byte. -/
theorem frameBytes_span (h : data.length ≤ 255) :
    span (frameBytes version dst src cmd data) =
      [0xA5, version, dst, src, cmd, BitVec.ofNat 8 data.length] ++ data := by
  unfold span slice
  rw [frameBytes_len, len_toNat _ h, frameBytes_eq, List.take_append_of_le_length (by simp; omega),
    List.take_of_length_le (by simp; omega)]
  rfl

/-- The data bytes of a frame stand where LEN says. -/
theorem frameBytes_data (h : data.length ≤ 255) :
    slice (frameBytes version dst src cmd data) 9
      (9 + (byteAt (frameBytes version dst src cmd data) 8).toNat) = data := by
  unfold slice
  rw [frameBytes_len, len_toNat _ h, frameBytes_eq, List.take_append_of_le_length (by simp; omega),
    List.take_of_length_le (by simp; omega)]
  rfl

/-- What `decode` answers on bytes of the declared length that begin with MARKER: only the checksum decides. -/
theorem decodeFrame_exact {bs : List Byte} (yes : bs.take 4 = marker) (exact : bs.length = frameLen (byteAt bs 8)) :
    decodeFrame bs =
      if rxChecksum bs ≠ cks bs then .error .checksumMismatch
      else .ok
        { version := byteAt bs 4, destination := byteAt bs 5, source := byteAt bs 6, commandId := byteAt bs 7,
          data := slice bs 9 (9 + (byteAt bs 8).toNat), checksum := rxChecksum bs } := by
  have : 11 ≤ bs.length := by rw [exact]; simp [frameLen]
  conv_lhs => unfold decodeFrame
  rw [if_neg (by simp only [not_or, not_not, Nat.not_lt, ne_eq]; exact ⟨by omega, yes⟩), if_neg (by omega),
    if_neg (by omega), if_neg (by omega)]

end Sys2Proof.Machine
end

