-- ==== Sys2Proof/Laws/State.lean ====
section
/-! SUPPORT. What each update of the state writes to each field, one lemma a field, so that no proof unfolds a record
update. -/

namespace Sys2Proof.Machine

variable (s : State)

@[simp] theorem emit_ckAcc (evs : List Event) : (emit evs s).ckAcc = s.ckAcc := rfl
@[simp] theorem emit_txhDst (evs : List Event) : (emit evs s).txhDst = s.txhDst := rfl
@[simp] theorem emit_txhSrc (evs : List Event) : (emit evs s).txhSrc = s.txhSrc := rfl
@[simp] theorem emit_txhCmd (evs : List Event) : (emit evs s).txhCmd = s.txhCmd := rfl
@[simp] theorem emit_txData (evs : List Event) : (emit evs s).txData = s.txData := rfl
@[simp] theorem emit_txPtl (evs : List Event) : (emit evs s).txPtl = s.txPtl := rfl
@[simp] theorem emit_txq (evs : List Event) : (emit evs s).txq = s.txq := rfl
@[simp] theorem emit_txi (evs : List Event) : (emit evs s).txi = s.txi := rfl
@[simp] theorem emit_arb (evs : List Event) : (emit evs s).arb = s.arb := rfl
@[simp] theorem emit_de (evs : List Event) : (emit evs s).de = s.de := rfl
@[simp] theorem emit_gcnt (evs : List Event) : (emit evs s).gcnt = s.gcnt := rfl
@[simp] theorem emit_rb (evs : List Event) : (emit evs s).rb = s.rb := rfl
@[simp] theorem emit_params (evs : List Event) : (emit evs s).params = s.params := rfl
@[simp] theorem emit_pending (evs : List Event) : (emit evs s).pending = s.pending := rfl
@[simp] theorem emit_chan (evs : List Event) : (emit evs s).chan = s.chan ++ evs := rfl

@[simp] theorem setCkAcc_ckAcc (x : Half) : (setCkAcc x s).ckAcc = x := rfl
@[simp] theorem setCkAcc_txhDst (x : Half) : (setCkAcc x s).txhDst = s.txhDst := rfl
@[simp] theorem setCkAcc_txhSrc (x : Half) : (setCkAcc x s).txhSrc = s.txhSrc := rfl
@[simp] theorem setCkAcc_txhCmd (x : Half) : (setCkAcc x s).txhCmd = s.txhCmd := rfl
@[simp] theorem setCkAcc_txData (x : Half) : (setCkAcc x s).txData = s.txData := rfl
@[simp] theorem setCkAcc_txPtl (x : Half) : (setCkAcc x s).txPtl = s.txPtl := rfl
@[simp] theorem setCkAcc_txq (x : Half) : (setCkAcc x s).txq = s.txq := rfl
@[simp] theorem setCkAcc_txi (x : Half) : (setCkAcc x s).txi = s.txi := rfl
@[simp] theorem setCkAcc_arb (x : Half) : (setCkAcc x s).arb = s.arb := rfl
@[simp] theorem setCkAcc_de (x : Half) : (setCkAcc x s).de = s.de := rfl
@[simp] theorem setCkAcc_gcnt (x : Half) : (setCkAcc x s).gcnt = s.gcnt := rfl
@[simp] theorem setCkAcc_rb (x : Half) : (setCkAcc x s).rb = s.rb := rfl
@[simp] theorem setCkAcc_params (x : Half) : (setCkAcc x s).params = s.params := rfl
@[simp] theorem setCkAcc_pending (x : Half) : (setCkAcc x s).pending = s.pending := rfl
@[simp] theorem setCkAcc_chan (x : Half) : (setCkAcc x s).chan = s.chan := rfl

@[simp] theorem setTxhDst_ckAcc (b : Byte) : (setTxhDst b s).ckAcc = s.ckAcc := rfl
@[simp] theorem setTxhDst_txhDst (b : Byte) : (setTxhDst b s).txhDst = b := rfl
@[simp] theorem setTxhDst_txhSrc (b : Byte) : (setTxhDst b s).txhSrc = s.txhSrc := rfl
@[simp] theorem setTxhDst_txhCmd (b : Byte) : (setTxhDst b s).txhCmd = s.txhCmd := rfl
@[simp] theorem setTxhDst_txData (b : Byte) : (setTxhDst b s).txData = s.txData := rfl
@[simp] theorem setTxhDst_txPtl (b : Byte) : (setTxhDst b s).txPtl = s.txPtl := rfl
@[simp] theorem setTxhDst_txq (b : Byte) : (setTxhDst b s).txq = s.txq := rfl
@[simp] theorem setTxhDst_txi (b : Byte) : (setTxhDst b s).txi = s.txi := rfl
@[simp] theorem setTxhDst_arb (b : Byte) : (setTxhDst b s).arb = s.arb := rfl
@[simp] theorem setTxhDst_de (b : Byte) : (setTxhDst b s).de = s.de := rfl
@[simp] theorem setTxhDst_gcnt (b : Byte) : (setTxhDst b s).gcnt = s.gcnt := rfl
@[simp] theorem setTxhDst_rb (b : Byte) : (setTxhDst b s).rb = s.rb := rfl
@[simp] theorem setTxhDst_params (b : Byte) : (setTxhDst b s).params = s.params := rfl
@[simp] theorem setTxhDst_pending (b : Byte) : (setTxhDst b s).pending = s.pending := rfl
@[simp] theorem setTxhDst_chan (b : Byte) : (setTxhDst b s).chan = s.chan := rfl

@[simp] theorem setTxhSrc_ckAcc (b : Byte) : (setTxhSrc b s).ckAcc = s.ckAcc := rfl
@[simp] theorem setTxhSrc_txhDst (b : Byte) : (setTxhSrc b s).txhDst = s.txhDst := rfl
@[simp] theorem setTxhSrc_txhSrc (b : Byte) : (setTxhSrc b s).txhSrc = b := rfl
@[simp] theorem setTxhSrc_txhCmd (b : Byte) : (setTxhSrc b s).txhCmd = s.txhCmd := rfl
@[simp] theorem setTxhSrc_txData (b : Byte) : (setTxhSrc b s).txData = s.txData := rfl
@[simp] theorem setTxhSrc_txPtl (b : Byte) : (setTxhSrc b s).txPtl = s.txPtl := rfl
@[simp] theorem setTxhSrc_txq (b : Byte) : (setTxhSrc b s).txq = s.txq := rfl
@[simp] theorem setTxhSrc_txi (b : Byte) : (setTxhSrc b s).txi = s.txi := rfl
@[simp] theorem setTxhSrc_arb (b : Byte) : (setTxhSrc b s).arb = s.arb := rfl
@[simp] theorem setTxhSrc_de (b : Byte) : (setTxhSrc b s).de = s.de := rfl
@[simp] theorem setTxhSrc_gcnt (b : Byte) : (setTxhSrc b s).gcnt = s.gcnt := rfl
@[simp] theorem setTxhSrc_rb (b : Byte) : (setTxhSrc b s).rb = s.rb := rfl
@[simp] theorem setTxhSrc_params (b : Byte) : (setTxhSrc b s).params = s.params := rfl
@[simp] theorem setTxhSrc_pending (b : Byte) : (setTxhSrc b s).pending = s.pending := rfl
@[simp] theorem setTxhSrc_chan (b : Byte) : (setTxhSrc b s).chan = s.chan := rfl

@[simp] theorem setTxhCmd_ckAcc (b : Byte) : (setTxhCmd b s).ckAcc = s.ckAcc := rfl
@[simp] theorem setTxhCmd_txhDst (b : Byte) : (setTxhCmd b s).txhDst = s.txhDst := rfl
@[simp] theorem setTxhCmd_txhSrc (b : Byte) : (setTxhCmd b s).txhSrc = s.txhSrc := rfl
@[simp] theorem setTxhCmd_txhCmd (b : Byte) : (setTxhCmd b s).txhCmd = b := rfl
@[simp] theorem setTxhCmd_txData (b : Byte) : (setTxhCmd b s).txData = s.txData := rfl
@[simp] theorem setTxhCmd_txPtl (b : Byte) : (setTxhCmd b s).txPtl = s.txPtl := rfl
@[simp] theorem setTxhCmd_txq (b : Byte) : (setTxhCmd b s).txq = s.txq := rfl
@[simp] theorem setTxhCmd_txi (b : Byte) : (setTxhCmd b s).txi = s.txi := rfl
@[simp] theorem setTxhCmd_arb (b : Byte) : (setTxhCmd b s).arb = s.arb := rfl
@[simp] theorem setTxhCmd_de (b : Byte) : (setTxhCmd b s).de = s.de := rfl
@[simp] theorem setTxhCmd_gcnt (b : Byte) : (setTxhCmd b s).gcnt = s.gcnt := rfl
@[simp] theorem setTxhCmd_rb (b : Byte) : (setTxhCmd b s).rb = s.rb := rfl
@[simp] theorem setTxhCmd_params (b : Byte) : (setTxhCmd b s).params = s.params := rfl
@[simp] theorem setTxhCmd_pending (b : Byte) : (setTxhCmd b s).pending = s.pending := rfl
@[simp] theorem setTxhCmd_chan (b : Byte) : (setTxhCmd b s).chan = s.chan := rfl

@[simp] theorem clearPayload_ckAcc : (clearPayload s).ckAcc = s.ckAcc := rfl
@[simp] theorem clearPayload_txhDst : (clearPayload s).txhDst = s.txhDst := rfl
@[simp] theorem clearPayload_txhSrc : (clearPayload s).txhSrc = s.txhSrc := rfl
@[simp] theorem clearPayload_txhCmd : (clearPayload s).txhCmd = s.txhCmd := rfl
@[simp] theorem clearPayload_txData : (clearPayload s).txData = [] := rfl
@[simp] theorem clearPayload_txPtl : (clearPayload s).txPtl = false := rfl
@[simp] theorem clearPayload_txq : (clearPayload s).txq = s.txq := rfl
@[simp] theorem clearPayload_txi : (clearPayload s).txi = s.txi := rfl
@[simp] theorem clearPayload_arb : (clearPayload s).arb = s.arb := rfl
@[simp] theorem clearPayload_de : (clearPayload s).de = s.de := rfl
@[simp] theorem clearPayload_gcnt : (clearPayload s).gcnt = s.gcnt := rfl
@[simp] theorem clearPayload_rb : (clearPayload s).rb = s.rb := rfl
@[simp] theorem clearPayload_params : (clearPayload s).params = s.params := rfl
@[simp] theorem clearPayload_pending : (clearPayload s).pending = s.pending := rfl
@[simp] theorem clearPayload_chan : (clearPayload s).chan = s.chan := rfl

@[simp] theorem startFrame_ckAcc (f : List Byte) : (startFrame f s).ckAcc = s.ckAcc := rfl
@[simp] theorem startFrame_txhDst (f : List Byte) : (startFrame f s).txhDst = s.txhDst := rfl
@[simp] theorem startFrame_txhSrc (f : List Byte) : (startFrame f s).txhSrc = s.txhSrc := rfl
@[simp] theorem startFrame_txhCmd (f : List Byte) : (startFrame f s).txhCmd = s.txhCmd := rfl
@[simp] theorem startFrame_txData (f : List Byte) : (startFrame f s).txData = s.txData := rfl
@[simp] theorem startFrame_txPtl (f : List Byte) : (startFrame f s).txPtl = s.txPtl := rfl
@[simp] theorem startFrame_txq (f : List Byte) : (startFrame f s).txq = f := rfl
@[simp] theorem startFrame_txi (f : List Byte) : (startFrame f s).txi = 0 := rfl
@[simp] theorem startFrame_arb (f : List Byte) :
    (startFrame f s).arb = if s.params.preGuardTicks = 0 then .sending else .preGuard := rfl
@[simp] theorem startFrame_de (f : List Byte) : (startFrame f s).de = true := rfl
@[simp] theorem startFrame_gcnt (f : List Byte) :
    (startFrame f s).gcnt = if s.params.preGuardTicks = 0 then s.gcnt else s.params.preGuardTicks := rfl
@[simp] theorem startFrame_rb (f : List Byte) : (startFrame f s).rb = s.rb := rfl
@[simp] theorem startFrame_params (f : List Byte) : (startFrame f s).params = s.params := rfl
@[simp] theorem startFrame_pending (f : List Byte) : (startFrame f s).pending = s.pending := rfl
@[simp] theorem startFrame_chan (f : List Byte) : (startFrame f s).chan = s.chan := rfl

@[simp] theorem finish_ckAcc : (finish s).ckAcc = s.ckAcc := rfl
@[simp] theorem finish_txhDst : (finish s).txhDst = s.txhDst := rfl
@[simp] theorem finish_txhSrc : (finish s).txhSrc = s.txhSrc := rfl
@[simp] theorem finish_txhCmd : (finish s).txhCmd = s.txhCmd := rfl
@[simp] theorem finish_txData : (finish s).txData = s.txData := rfl
@[simp] theorem finish_txPtl : (finish s).txPtl = s.txPtl := rfl
@[simp] theorem finish_txq : (finish s).txq = [] := rfl
@[simp] theorem finish_txi : (finish s).txi = 0 := rfl
@[simp] theorem finish_arb : (finish s).arb = .listen := rfl
@[simp] theorem finish_de : (finish s).de = false := rfl
@[simp] theorem finish_gcnt : (finish s).gcnt = s.gcnt := rfl
@[simp] theorem finish_rb : (finish s).rb = s.rb := rfl
@[simp] theorem finish_params : (finish s).params = s.params := rfl
@[simp] theorem finish_pending : (finish s).pending = s.pending := rfl
@[simp] theorem finish_chan : (finish s).chan = s.chan ++ [.txDone (BitVec.ofNat 9 s.txq.length)] := rfl

@[simp] theorem resetCore_ckAcc : (resetCore s).ckAcc = 0 := rfl
@[simp] theorem resetCore_txhDst : (resetCore s).txhDst = 0 := rfl
@[simp] theorem resetCore_txhSrc : (resetCore s).txhSrc = 0 := rfl
@[simp] theorem resetCore_txhCmd : (resetCore s).txhCmd = 0 := rfl
@[simp] theorem resetCore_txData : (resetCore s).txData = [] := rfl
@[simp] theorem resetCore_txPtl : (resetCore s).txPtl = false := rfl
@[simp] theorem resetCore_txq : (resetCore s).txq = [] := rfl
@[simp] theorem resetCore_txi : (resetCore s).txi = 0 := rfl
@[simp] theorem resetCore_arb : (resetCore s).arb = .listen := rfl
@[simp] theorem resetCore_de : (resetCore s).de = false := rfl
@[simp] theorem resetCore_gcnt : (resetCore s).gcnt = 0 := rfl
@[simp] theorem resetCore_rb : (resetCore s).rb = [] := rfl
@[simp] theorem resetCore_params : (resetCore s).params = s.params := rfl
@[simp] theorem resetCore_pending : (resetCore s).pending = s.pending := rfl
@[simp] theorem resetCore_chan : (resetCore s).chan = s.chan := rfl

end Sys2Proof.Machine
end

