-- ==== Sys2Proof/Laws/Ops.lean ====
section
/-! SUPPORT. What each shared operation can do, said once: the lemmas a proof cites instead of unfolding the operation. -/

namespace Sys2Proof.Machine

variable {s t : State} {p : Params}

/-! ## Widths -/

/-- A number fits its bit length. -/
theorem lt_two_pow_bitlen (n : Nat) : n < 2 ^ bitlen n := by
  unfold bitlen
  split
  · omega
  · exact Nat.lt_log2_self

/-! ## Payload -/

theorem pushPayload_room (b : Byte) (h : s.txData.length < 255) :
    pushPayload b s = { s with txData := s.txData ++ [b] } := if_pos h

theorem pushPayload_full (b : Byte) (h : ¬ s.txData.length < 255) :
    pushPayload b s = { s with txPtl := true, chan := s.chan ++ [.ptl .push] } := if_neg h

/-- Pushes that fit append in order. -/
theorem foldl_pushPayload (data : List Byte) (s : State) (h : s.txData.length + data.length ≤ 255) :
    data.foldl (fun t b => pushPayload b t) s = { s with txData := s.txData ++ data } := by
  induction data generalizing s with
  | nil => simp
  | cons b bs ih =>
    simp only [List.length_cons] at h
    rw [List.foldl_cons, pushPayload_room b (by omega), ih _ (by simp; omega)]
    simp

/-! ## Sending -/

theorem sendPayload_busy (h : s.arb ≠ .listen) : sendPayload s = .fault (.sendBusy s.arb) := if_pos h

/-- A send that answers a next state: refused by TX_PTL, or started, or (never in a reachable state) refused by `encode`. -/
theorem sendPayload_cases (h : sendPayload s = .next t) :
    s.arb = .listen ∧
      ((s.txPtl = true ∧ t = emit [.ptl .send] s) ∨
        (s.txPtl = false ∧ s.txData.length ≤ 255 ∧
          t = startFrame (frameBytes 0x00 s.txhDst s.txhSrc s.txhCmd s.txData) s) ∨
        (s.txPtl = false ∧ 255 < s.txData.length ∧ t = emit [.ptl .send] s)) := by
  unfold sendPayload encodeFrame at h
  split at h
  · cases h
  · rename_i listening
    refine ⟨not_not.mp listening, ?_⟩
    split at h
    · rename_i flag; exact .inl ⟨flag, by injection h with h; exact h.symm⟩
    · rename_i flag
      have flag : s.txPtl = false := by simpa using flag
      by_cases long : s.txData.length > 255
      · rw [if_pos long] at h
        exact .inr (.inr ⟨flag, long, by injection h with h; exact h.symm⟩)
      · rw [if_neg long] at h
        exact .inr (.inl ⟨flag, by omega, by injection h with h; exact h.symm⟩)

theorem sendPayload_starts (listening : s.arb = .listen) (flag : s.txPtl = false) (fits : s.txData.length ≤ 255) :
    sendPayload s = .next (startFrame (frameBytes 0x00 s.txhDst s.txhSrc s.txhCmd s.txData) s) := by
  simp [sendPayload, encodeFrame, listening, flag, Nat.not_lt.mpr fits]

theorem sendPayload_flagged (listening : s.arb = .listen) (flag : s.txPtl = true) :
    sendPayload s = .next (emit [.ptl .send] s) := by
  simp [sendPayload, listening, flag]

/-- A send faults exactly while the line is busy. -/
theorem sendPayload_fault {f : Fault} (h : sendPayload s = .fault f) : s.arb ≠ .listen ∧ f = .sendBusy s.arb := by
  by_cases listening : s.arb = .listen
  · unfold sendPayload at h
    rw [if_neg (by simpa using listening)] at h
    split at h
    · cases h
    · split at h <;> cases h
  · rw [sendPayload_busy listening] at h
    exact ⟨listening, by injection h with h; exact h.symm⟩

theorem sendPayload_not_refused {r : Refusal} : sendPayload s ≠ .refused r := by
  unfold sendPayload
  split
  · simp
  · split
    · simp
    · split <;> simp

/-- The registers a request leaves, before its frame is put on the line. -/
def loadRequest (dst src cmd : Byte) (data : List Byte) (s : State) : State :=
  { s with txhDst := dst, txhSrc := src, txhCmd := cmd, txData := data, txPtl := false }

theorem sendRequest_eq (dst src cmd : Byte) (data : List Byte) (s : State) (fits : data.length ≤ 255) :
    sendRequest dst src cmd data s = sendPayload (loadRequest dst src cmd data s) := by
  unfold sendRequest
  rw [foldl_pushPayload _ _ (by simpa using fits)]
  rfl

/-- A request in LISTEN starts its frame. -/
theorem sendRequest_starts (dst src cmd : Byte) (data : List Byte) (fits : data.length ≤ 255) (listening : s.arb = .listen) :
    sendRequest dst src cmd data s =
      .next (startFrame (frameBytes 0x00 dst src cmd data) (loadRequest dst src cmd data s)) := by
  rw [sendRequest_eq _ _ _ _ _ fits]
  exact sendPayload_starts (s := loadRequest dst src cmd data s) listening rfl fits

/-- What a request that fits can answer: the fault of its TX_SEND, or its frame on the line. -/
theorem sendRequest_cases (dst src cmd : Byte) (data : List Byte) (fits : data.length ≤ 255) (s : State) :
    (s.arb ≠ .listen ∧ sendRequest dst src cmd data s = .fault (.sendBusy s.arb)) ∨
      (s.arb = .listen ∧ sendRequest dst src cmd data s =
        .next (startFrame (frameBytes 0x00 dst src cmd data) (loadRequest dst src cmd data s))) := by
  by_cases listening : s.arb = .listen
  · exact .inr ⟨listening, sendRequest_starts dst src cmd data fits listening⟩
  · refine .inl ⟨listening, ?_⟩
    rw [sendRequest_eq _ _ _ _ _ fits]
    exact sendPayload_busy (s := loadRequest dst src cmd data s) listening

theorem sendRequest_busy (dst src cmd : Byte) (data : List Byte) (fits : data.length ≤ 255) (busy : s.arb ≠ .listen) :
    sendRequest dst src cmd data s = .fault (.sendBusy s.arb) := by
  rw [sendRequest_eq _ _ _ _ _ fits]
  exact sendPayload_busy (s := loadRequest dst src cmd data s) busy

/-! ## UART and guards -/

theorem takeByte_cases (h : takeByte s = .next t) :
    s.arb = .sending ∧
      ((s.txi + 1 = s.txq.length ∧ t = { s with txi := s.txi + 1, arb := .drain }) ∨
        (s.txi + 1 ≠ s.txq.length ∧ t = { s with txi := s.txi + 1 })) := by
  unfold takeByte at h
  split at h
  · cases h
  · rename_i sending
    refine ⟨not_not.mp sending, ?_⟩
    split at h
    · rename_i last; exact .inl ⟨last, by injection h with h; exact h.symm⟩
    · rename_i more; exact .inr ⟨more, by injection h with h; exact h.symm⟩

theorem takeByte_idle (h : s.arb ≠ .sending) : takeByte s = .fault (.uartTake s.arb) := if_pos h

theorem takeByte_last (sending : s.arb = .sending) (last : s.txi + 1 = s.txq.length) :
    takeByte s = .next { s with txi := s.txi + 1, arb := .drain } := by
  simp [takeByte, sending, last]

theorem takeByte_more (sending : s.arb = .sending) (more : s.txi + 1 ≠ s.txq.length) :
    takeByte s = .next { s with txi := s.txi + 1 } := by
  simp [takeByte, sending, more]

theorem uartDrained_cases (s : State) :
    (s.arb = .drain ∧ s.params.postGuardTicks = 0 ∧ uartDrained s = finish s) ∨
      (s.arb = .drain ∧ s.params.postGuardTicks ≠ 0 ∧
        uartDrained s = { s with arb := .postGuard, gcnt := s.params.postGuardTicks }) ∨
      (s.arb ≠ .drain ∧ uartDrained s = s) := by
  unfold uartDrained
  by_cases draining : s.arb = .drain
  · by_cases guard : s.params.postGuardTicks = 0
    · exact .inl ⟨draining, guard, by rw [if_pos draining, if_pos guard]⟩
    · exact .inr (.inl ⟨draining, guard, by rw [if_pos draining, if_neg guard]⟩)
  · exact .inr (.inr ⟨draining, if_neg draining⟩)

theorem tickGuard_preGuard (h : s.arb = .preGuard) :
    tickGuard s =
      if s.gcnt - 1 = 0 then { s with gcnt := s.gcnt - 1, arb := .sending } else { s with gcnt := s.gcnt - 1 } := by
  simp [tickGuard, h]

theorem tickGuard_postGuard (h : s.arb = .postGuard) :
    tickGuard s = if s.gcnt - 1 = 0 then finish { s with gcnt := s.gcnt - 1 } else { s with gcnt := s.gcnt - 1 } := by
  simp [tickGuard, h]

theorem tickGuard_other (pre : s.arb ≠ .preGuard) (post : s.arb ≠ .postGuard) : tickGuard s = s := by
  unfold tickGuard
  split <;> simp_all

/-! ## Reassembler -/

theorem appendByte_length (b : Byte) {rb : List Byte} (h : rb.length ≤ p.rxBufDepth) :
    (appendByte p b rb).2.length ≤ p.rxBufDepth := by
  have : 11 ≤ p.rxBufDepth := by simp [Params.rxBufDepth]
  unfold appendByte
  split <;> simp <;> omega

/-- Whichever branch of 42_reassembler.md R163 a turn takes, and what it answers there. -/
inductive Turn (p : Params) (rb : List Byte) : Prop where
  | waitMarker (short : rb.length < 4) (e : settleTurn p rb = none)
  | garbage (long : 4 ≤ rb.length) (no : rb.take 4 ≠ marker) (e : settleTurn p rb = some ([], rb.drop 1))
  | waitHeader (yes : rb.take 4 = marker) (short : rb.length < 11) (e : settleTurn p rb = none)
  | waitFrame (yes : rb.take 4 = marker) (long : 11 ≤ rb.length) (short : rb.length < frameLen (byteAt rb 8))
      (e : settleTurn p rb = none)
  | accept (fr : Frame) (yes : rb.take 4 = marker) (long : frameLen (byteAt rb 8) ≤ rb.length)
      (good : decodeFrame (rb.take (frameLen (byteAt rb 8))) = .ok fr)
      (e : settleTurn p rb = some ([frameEvent p fr], rb.drop (frameLen (byteAt rb 8))))
  | resync (err : DecodeError) (yes : rb.take 4 = marker) (long : frameLen (byteAt rb 8) ≤ rb.length)
      (bad : decodeFrame (rb.take (frameLen (byteAt rb 8))) = .error err)
      (e : settleTurn p rb =
        some ([.cksumErr (be16 (byteAt rb (frameLen (byteAt rb 8) - 2)) (byteAt rb (frameLen (byteAt rb 8) - 1)))
          (sum16 (slice rb 3 (frameLen (byteAt rb 8) - 2)))], rb.drop 1))

theorem settleTurn_cases (p : Params) (rb : List Byte) : Turn p rb := by
  by_cases short : rb.length < 4
  · exact .waitMarker short (if_pos short)
  by_cases yes : rb.take 4 = marker
  · by_cases header : rb.length < 11
    · exact .waitHeader yes header (by unfold settleTurn; rw [if_neg short, if_neg (not_not.mpr yes), if_pos header])
    by_cases frame : rb.length < frameLen (byteAt rb 8)
    · exact .waitFrame yes (by omega) frame
        (by unfold settleTurn; rw [if_neg short, if_neg (not_not.mpr yes), if_neg header, if_pos frame])
    cases candidate : decodeFrame (rb.take (frameLen (byteAt rb 8))) with
    | ok fr =>
      refine .accept fr yes (by omega) candidate ?_
      unfold settleTurn
      rw [if_neg short, if_neg (not_not.mpr yes), if_neg header, if_neg frame]
      simp only [candidate]
    | error err =>
      refine .resync err yes (by omega) candidate ?_
      unfold settleTurn
      rw [if_neg short, if_neg (not_not.mpr yes), if_neg header, if_neg frame]
      simp only [candidate]
  · exact .garbage (by omega) yes (by unfold settleTurn; rw [if_neg short, if_pos yes])

/-- A turn of the loop that goes on removes a byte at least, and none but from the front. -/
theorem settleTurn_drops {rb rb' : List Byte} {evs : List Event} (h : settleTurn p rb = some (evs, rb')) :
    4 ≤ rb.length ∧ ∃ k, 1 ≤ k ∧ rb' = rb.drop k := by
  unfold settleTurn at h
  split at h
  · cases h
  · rename_i long
    refine ⟨by omega, ?_⟩
    split at h
    · exact ⟨1, le_rfl, by simp_all⟩
    · split at h
      · cases h
      · split at h
        · cases h
        · dsimp only at h
          split at h
          · exact ⟨frameLen (byteAt rb 8), by simp [frameLen]; omega, by simp_all⟩
          · exact ⟨1, le_rfl, by simp_all⟩

theorem settleTurn_shorter {rb rb' : List Byte} {evs : List Event} (h : settleTurn p rb = some (evs, rb')) :
    rb'.length < rb.length := by
  obtain ⟨long, k, hk, rfl⟩ := settleTurn_drops h
  simp only [List.length_drop]
  omega

/-- Fuel beyond the length of RB changes nothing. -/
theorem settleLoop_fuel {fuel : Nat} {rb : List Byte} (h : rb.length ≤ fuel) : settleLoop p fuel rb = settle p rb := by
  unfold settle
  induction fuel using Nat.strong_induction_on generalizing rb with
  | _ fuel ih =>
    cases turn : settleTurn p rb with
    | none => cases fuel <;> cases hrb : rb.length <;> simp_all [settleLoop]
    | some r =>
      obtain ⟨evs, rb'⟩ := r
      have shorter := settleTurn_shorter turn
      obtain ⟨n, rfl⟩ : ∃ n, fuel = n + 1 := ⟨fuel - 1, by omega⟩
      obtain ⟨m, hm⟩ : ∃ m, rb.length = m + 1 := ⟨rb.length - 1, by omega⟩
      rw [hm]
      simp only [settleLoop, turn]
      rw [ih n (by omega) (rb := rb') (by omega)]
      by_cases same : n = m
      · subst same; rw [ih n (by omega) (rb := rb') (by omega)]
      · rw [ih m (by omega) (rb := rb') (by omega)]

/-- `settle` unfolded by one turn. -/
theorem settle_turn (rb : List Byte) :
    settle p rb =
      match settleTurn p rb with
      | none => ([], rb)
      | some (evs, rb') => (evs ++ (settle p rb').1, (settle p rb').2) := by
  cases turn : settleTurn p rb with
  | none => unfold settle; cases rb.length <;> simp [settleLoop, turn]
  | some r =>
    obtain ⟨evs, rb'⟩ := r
    have shorter := settleTurn_shorter turn
    obtain ⟨m, hm⟩ : ∃ m, rb.length = m + 1 := ⟨rb.length - 1, by omega⟩
    conv_lhs => rw [settle, hm]
    simp only [settleLoop, turn]
    rw [settleLoop_fuel (by omega)]

theorem settle_none {rb : List Byte} (h : settleTurn p rb = none) : settle p rb = ([], rb) := by
  rw [settle_turn, h]

theorem settle_some {rb rb' : List Byte} {evs : List Event} (h : settleTurn p rb = some (evs, rb')) :
    settle p rb = (evs ++ (settle p rb').1, (settle p rb').2) := by
  rw [settle_turn, h]

/-- RB after a settle is what is left of its end, and the loop would return at once on it. -/
theorem settle_drops (rb : List Byte) :
    (∃ k, (settle p rb).2 = rb.drop k) ∧ settleTurn p (settle p rb).2 = none := by
  induction n : rb.length using Nat.strong_induction_on generalizing rb with
  | _ n ih =>
    cases turn : settleTurn p rb with
    | none => rw [settle_none turn]; exact ⟨⟨0, rfl⟩, turn⟩
    | some r =>
      obtain ⟨evs, rb'⟩ := r
      obtain ⟨-, k, -, rfl⟩ := settleTurn_drops turn
      have shorter := settleTurn_shorter turn
      obtain ⟨⟨j, hj⟩, stops⟩ := ih _ (by omega) (rb.drop k) rfl
      rw [settle_some turn]
      exact ⟨⟨k + j, by simp [hj]⟩, stops⟩

theorem receiveByte_busy (b : Byte) (h : s.arb ≠ .listen) : receiveByte b s = s := if_pos h

theorem receiveByte_listen (b : Byte) (h : s.arb = .listen) :
    receiveByte b s =
      { s with
        rb := (settle s.params (appendByte s.params b s.rb).2).2
        chan := s.chan ++ ((appendByte s.params b s.rb).1 ++ (settle s.params (appendByte s.params b s.rb).2).1) } := by
  simp [receiveByte, h, emit]

theorem receiveBytes_nil (s : State) : receiveBytes [] s = s := rfl

theorem receiveBytes_cons (b : Byte) (bs : List Byte) (s : State) :
    receiveBytes (b :: bs) s = receiveBytes bs (receiveByte b s) := rfl

/-- Received bytes change RB and the event channel only. -/
theorem receiveByte_frame (b : Byte) (s : State) :
    ∃ rb evs, receiveByte b s = { s with rb := rb, chan := s.chan ++ evs } := by
  by_cases h : s.arb = .listen
  · exact ⟨_, _, receiveByte_listen b h⟩
  · exact ⟨s.rb, [], by rw [receiveByte_busy b h]; simp⟩

theorem receiveBytes_frame (bs : List Byte) (s : State) :
    ∃ rb evs, receiveBytes bs s = { s with rb := rb, chan := s.chan ++ evs } := by
  induction bs generalizing s with
  | nil => exact ⟨s.rb, [], by simp [receiveBytes_nil]⟩
  | cons b bs ih =>
    obtain ⟨rb, evs, h⟩ := receiveByte_frame b s
    obtain ⟨rb', evs', h'⟩ := ih (receiveByte b s)
    rw [receiveBytes_cons, h', h]
    exact ⟨rb', evs ++ evs', by simp⟩

end Sys2Proof.Machine
end

