-- ==== Sys2Proof/Laws/PerInstr.lean ====
section
/-! SUPPORT. The statements made of every instruction as syntax, one lemma per constructor. -/

namespace Sys2Proof.Laws

/-! ## EncodedFormat: the format of spec/opcode_table.json an instruction is encoded in -/

namespace EncodedFormat

open Machine

/-- The OP of the HOST row of an instruction (30_encoding.md R73): its host word has that OP. -/
def HostOp (op : Byte) (i : Instr) : Prop := ∃ w, encode i = .host w ∧ opField w = op

/-- The CMD and LEN of the FRAME_CMD row of an instruction (30_encoding.md R81): its wire frame has them. -/
def FrameCmd (cmd len : Byte) (i : Instr) : Prop :=
  ∃ bs, encode i = .frame bs ∧ bs.take 4 = marker ∧ byteAt bs 7 = cmd ∧ byteAt bs 8 = len ∧ bs.length = frameLen len

/-- The encoding of an instruction has the format, and the OP, the CMD and LEN or the port, of its row. -/
def Statement (i : Instr) : Prop :=
  match i with
  | .nop => HostOp 0x00 i
  | .ckClr => HostOp 0x01 i
  | .ckAdd _ => HostOp 0x02 i
  | .txDst _ => HostOp 0x10 i
  | .txSrc _ => HostOp 0x11 i
  | .txCmd _ => HostOp 0x12 i
  | .txPush _ => HostOp 0x13 i
  | .txClr => HostOp 0x14 i
  | .txSend => HostOp 0x15 i
  | .rxFlush => HostOp 0x20 i
  | .illegal w => HostOp (opField w) i
  | .writeReg _ _ _ _ => FrameCmd 0x01 4 i
  | .remoteLocal _ _ _ => FrameCmd 0x04 1 i
  | .setMode _ _ _ => FrameCmd 0x05 1 i
  | .runStop _ _ _ => FrameCmd 0x06 1 i
  | .statusQuery _ _ => FrameCmd 0x07 0 i
  | .statusResponse _ _ _ _ => FrameCmd 0x07 15 i
  | .reset => encode i = .rst
  | .rxByte b => encode i = .rx b
  | .uartTake => encode i = .utxTake
  | .uartEmpty => encode i = .utxEmpty
  | .tick => encode i = .tick

theorem hostOp_hostWord (op imm : Byte) {i : Instr} (h : encode i = .host (hostWord op imm)) : HostOp op i :=
  ⟨_, h, hi8_be16 op imm⟩

theorem nop : Statement .nop := hostOp_hostWord _ _ rfl
theorem ckClr : Statement .ckClr := hostOp_hostWord _ _ rfl
theorem ckAdd (imm : Byte) : Statement (.ckAdd imm) := hostOp_hostWord _ _ rfl
theorem txDst (imm : Byte) : Statement (.txDst imm) := hostOp_hostWord _ _ rfl
theorem txSrc (imm : Byte) : Statement (.txSrc imm) := hostOp_hostWord _ _ rfl
theorem txCmd (imm : Byte) : Statement (.txCmd imm) := hostOp_hostWord _ _ rfl
theorem txPush (imm : Byte) : Statement (.txPush imm) := hostOp_hostWord _ _ rfl
theorem txClr : Statement .txClr := hostOp_hostWord _ _ rfl
theorem txSend : Statement .txSend := hostOp_hostWord _ _ rfl
theorem rxFlush : Statement .rxFlush := hostOp_hostWord _ _ rfl
theorem illegal (w : Half) : Statement (.illegal w) := ⟨w, rfl, rfl⟩
theorem writeReg (dst src : Byte) (reg val : Half) : Statement (.writeReg dst src reg val) :=
  ⟨_, rfl, rfl, rfl, rfl, rfl⟩
theorem remoteLocal (dst src : Byte) (remote : Bool) : Statement (.remoteLocal dst src remote) := by
  cases remote <;> exact ⟨_, rfl, rfl, rfl, rfl, rfl⟩
theorem setMode (dst src m : Byte) : Statement (.setMode dst src m) := ⟨_, rfl, rfl, rfl, rfl, rfl⟩
theorem runStop (dst src : Byte) (start : Bool) : Statement (.runStop dst src start) := by
  cases start <;> exact ⟨_, rfl, rfl, rfl, rfl, rfl⟩
theorem statusQuery (dst src : Byte) : Statement (.statusQuery dst src) := ⟨_, rfl, rfl, rfl, rfl, rfl⟩
theorem statusResponse (version dst src : Byte) (r : StatusRecord) : Statement (.statusResponse version dst src r) :=
  ⟨_, rfl, rfl, rfl, rfl, rfl⟩
theorem reset : Statement .reset := rfl
theorem rxByte (b : Byte) : Statement (.rxByte b) := rfl
theorem uartTake : Statement .uartTake := rfl
theorem uartEmpty : Statement .uartEmpty := rfl
theorem tick : Statement .tick := rfl

end EncodedFormat
end Sys2Proof.Laws
end

