-- ==== Sys2Proof/Laws/Step.lean ====
section
/-! SUPPORT. What a step can do, said once. -/

namespace Sys2Proof.Machine

variable {s t : State}

/-- A step that answers a next state: nothing was pending, or an empty cycle passed, or an instruction ran on the state without
its input. -/
theorem step_cases (h : step s = .next t) :
    (s.pending = [] ∧ t = s) ∨
      (∃ rest, takeInput s.pending = some (none, rest) ∧ t = { s with pending := rest }) ∨
      (∃ raw rest i, takeInput s.pending = some (some raw, rest) ∧ decode raw = .ok i ∧
        exec i { s with pending := rest } = .next t) := by
  unfold step at h
  split at h
  · rename_i none
    refine .inl ⟨?_, by injection h with h; exact h.symm⟩
    unfold takeInput at none
    split at none
    · assumption
    · cases none
    · split at none <;> cases none
  · rename_i rest taken
    exact .inr (.inl ⟨rest, taken, by injection h with h; exact h.symm⟩)
  · rename_i raw rest taken
    split at h
    · rename_i i decoded
      exact .inr (.inr ⟨raw, rest, i, taken, decoded, h⟩)
    · cases h

/-- The front cycle gives its first event and keeps the others. -/
theorem takeInput_cycle {c c' : Cycle} {raw : Raw} (rest : List Input) (h : c.first = some (raw, c')) :
    takeInput (.cycle c :: rest) = some (some raw, if c' = Cycle.idle then rest else .cycle c' :: rest) := by
  simp [takeInput, h]

/-- An input that presents one raw instruction is taken whole. -/
theorem takeInput_only (raw : Raw) (rest : List Input) : takeInput (Input.only raw :: rest) = some (some raw, rest) := by
  cases raw <;> simp [takeInput, Input.only, Cycle.first, Cycle.hostOnly, Cycle.idle]

end Sys2Proof.Machine
end

