-- ==== Sys2Proof/Tests/Slice0.lean ====
section
/-! SUPPORT. Tests on fixed values: the refusals of WellFormed, the decoding of words written out from the spec's encodings, single
steps on small states (expected values from 95_test_vectors.md and the examples of the rules), and, for every obligation with
hypotheses, values that meet them. -/

namespace Sys2Proof.Tests

open Machine

/-! ## Small states -/

/-- The parameters of 95_test_vectors.md: depth 266, no guards, OWN_ADDR 0x20. -/
def std : Params where
  rxBufExtra := 255
  preGuardTicks := 0
  postGuardTicks := 0
  tickPeriod := 1
  ownAddrLow := 0x0
  gcntWidthExtra := 0

/-- The guards of V37. -/
def guarded : Params := { std with preGuardTicks := 2, postGuardTicks := 1 }

/-- The least depth, 11 bytes (V31). -/
def shallow : Params := { std with rxBufExtra := 0 }

/-- `Q` of 95_test_vectors.md. -/
def q : List Byte := [0xFF, 0x00, 0xFF, 0xA5, 0x00, 0x60, 0x20, 0x07, 0x00, 0x01, 0x2C]

/-- `RUN` of 95_test_vectors.md. -/
def run : List Byte := [0xFF, 0x00, 0xFF, 0xA5, 0x00, 0x60, 0x20, 0x06, 0x01, 0x0A, 0x01, 0x36]

/-- The data of `RSP` of 95_test_vectors.md. -/
def rspData : List Byte :=
  [0x0A, 0x09, 0x02, 0x01, 0xF4, 0x0B, 0xB8, 0x20, 0x00, 0x00, 0x00, 0x00, 0x00, 0x0D, 0x1E]

/-- `RSP` of 95_test_vectors.md. -/
def rsp : List Byte := [0xFF, 0x00, 0xFF, 0xA5, 0x00, 0x20, 0x60, 0x07, 0x0F] ++ rspData ++ [0x03, 0x53]

/-- The fields of V23. -/
def rspRecord : StatusRecord where
  run := 0x0A
  mode := 0x09
  drive := 0x02
  power := 500
  rpm := 3000
  gpm := 32
  ppc := 0
  reserved0 := 0
  errorCode := 0
  reserved1 := 0
  timer := 0
  clockHour := 13
  clockMinute := 30

/-- The record of V2. -/
def qFrame : Frame where
  version := 0x00
  destination := 0x60
  source := 0x20
  commandId := 0x07
  data := []
  checksum := 0x012C

/-- An idle core. -/
def idle : State := State.resetWith std

/-- An idle core whose header is that of `Q`. -/
def loaded (p : Params) : State := { State.resetWith p with txhDst := 0x60, txhSrc := 0x20, txhCmd := 0x07 }

/-- A core with `Q` on the line, `i` of its bytes taken, in a state of the arbiter. -/
def busyWith (arb : ArbState) (i gcnt : Nat) : State :=
  { loaded guarded with txq := q, txi := i, arb := arb, de := true, gcnt := gcnt }

/-- An idle core with bytes in RB. -/
def holding (p : Params) (rb : List Byte) : State := { State.resetWith p with rb := rb }

/-- An idle core with `n` payload bytes. -/
def payload (n : Nat) : State := { idle with txData := List.replicate n 0x11 }

theorem payload_length (n : Nat) : (payload n).txData.length = n := List.length_replicate

/-- The next state, if there is one. -/
def after : Host.Outcome State Fault Refusal → Option State
  | .next s => some s
  | .fault _ => none
  | .refused _ => none

/-- The fault, if there is one. -/
def faultOf : Host.Outcome State Fault Refusal → Option Fault
  | .next _ => none
  | .fault f => some f
  | .refused _ => none

/-- The EV_FRAME of `Q` with OWN_ADDR 0x20. -/
def qEvent : Event :=
  .frame
    { version := 0x00, destination := 0x60, source := 0x20, commandId := 0x07, len := 0, data := [], checksum := 0x012C,
      forUs := false }

/-! ## WellFormed: each check refuses an ill-formed term -/

theorem test_wf_illegal_nop_refused : Instr.wf (.illegal 0x00FF) = false := by decide
theorem test_wf_illegal_rxFlush_refused : Instr.wf (.illegal 0x2000) = false := by decide
theorem test_wf_illegal_bounds :
    [0x03, 0x0F, 0x16, 0x1F, 0x21, 0xFF].all (fun op => Instr.wf (.illegal (hostWord op 0x00))) = true := by decide
theorem test_wf_setMode_refused :
    [0x06, 0x08, 0x0D, 0xFF].all (fun m => !Instr.wf (.setMode 0x60 0x20 m)) = true := by decide
theorem test_wf_setMode_accepted :
    [0x00, 0x05, 0x09, 0x0C].all (fun m => Instr.wf (.setMode 0x60 0x20 m)) = true := by decide

/-! ## Decoding of words written out from the encodings (30_encoding.md R71, R73, R76, R81; 10_state.md R44) -/

theorem test_decode_nop : decode (.host 0b0000000000000000) = .ok .nop := by decide
theorem test_decode_ckClr : decode (.host 0b0000000111111111) = .ok .ckClr := by decide
theorem test_decode_ckAdd : decode (.host 0b0000001010100101) = .ok (.ckAdd 0xA5) := by decide
theorem test_decode_txDst : decode (.host 0b0001000001100000) = .ok (.txDst 0x60) := by decide
theorem test_decode_txSrc : decode (.host 0b0001000100100000) = .ok (.txSrc 0x20) := by decide
theorem test_decode_txCmd : decode (.host 0b0001001000000111) = .ok (.txCmd 0x07) := by decide
theorem test_decode_txPush : decode (.host 0b0001001100001010) = .ok (.txPush 0x0A) := by decide
theorem test_decode_txClr : decode (.host 0b0001010000000000) = .ok .txClr := by decide
theorem test_decode_txSend : decode (.host 0b0001010100000000) = .ok .txSend := by decide
theorem test_decode_rxFlush : decode (.host 0b0010000000000000) = .ok .rxFlush := by decide
theorem test_decode_illegal : decode (.host 0xFF00) = .ok (.illegal 0xFF00) := by decide
theorem test_decode_writeReg :
    decode (.frame [0xFF, 0x00, 0xFF, 0xA5, 0x00, 0x60, 0x20, 0x01, 0x04, 0x03, 0x21, 0x05, 0xDC, 0x02, 0x2F]) =
      .ok (.writeReg 0x60 0x20 0x0321 0x05DC) := by decide
theorem test_decode_remote :
    decode (.frame [0xFF, 0x00, 0xFF, 0xA5, 0x00, 0x60, 0x20, 0x04, 0x01, 0xFF, 0x02, 0x29]) =
      .ok (.remoteLocal 0x60 0x20 true) := by decide
theorem test_decode_local :
    decode (.frame [0xFF, 0x00, 0xFF, 0xA5, 0x00, 0x60, 0x20, 0x04, 0x01, 0x00, 0x01, 0x2A]) =
      .ok (.remoteLocal 0x60 0x20 false) := by decide
theorem test_decode_setMode :
    decode (.frame [0xFF, 0x00, 0xFF, 0xA5, 0x00, 0x60, 0x20, 0x05, 0x01, 0x09, 0x01, 0x34]) =
      .ok (.setMode 0x60 0x20 0x09) := by decide
theorem test_decode_start : decode (.frame run) = .ok (.runStop 0x60 0x20 true) := by decide
theorem test_decode_stop :
    decode (.frame [0xFF, 0x00, 0xFF, 0xA5, 0x00, 0x60, 0x20, 0x06, 0x01, 0x04, 0x01, 0x30]) =
      .ok (.runStop 0x60 0x20 false) := by decide
theorem test_decode_statusQuery : decode (.frame q) = .ok (.statusQuery 0x60 0x20) := by decide
theorem test_decode_statusResponse : decode (.frame rsp) = .ok (.statusResponse 0x00 0x20 0x60 rspRecord) := by decide
theorem test_decode_reset : decode .rst = .ok .reset := by decide
theorem test_decode_rxByte : decode (.rx 0xFF) = .ok (.rxByte 0xFF) := by decide
theorem test_decode_uartTake : decode .utxTake = .ok .uartTake := by decide
theorem test_decode_uartEmpty : decode .utxEmpty = .ok .uartEmpty := by decide
theorem test_decode_tick : decode .tick = .ok .tick := by decide

/-- A received status query of VERSION 1 verifies (V22) but is no row. -/
theorem test_decode_unlisted :
    decode (.frame [0xFF, 0x00, 0xFF, 0xA5, 0x01, 0x60, 0x20, 0x07, 0x00, 0x01, 0x2D]) =
      .error (.unlistedFrame 0x01 0x07 []) := by decide

theorem test_tableWord_host : decodeTableWord 16 0x1360 = some (.txPush 0x60) := by decide
theorem test_tableWord_frame :
    [0x01, 0x04, 0x05, 0x06, 0x07].map (decodeTableWord 8) =
      [some (.writeReg 0 0 0 0), some (.remoteLocal 0 0 false), some (.setMode 0 0 0), some (.runStop 0 0 false),
        some (.statusQuery 0 0)] := by decide
theorem test_fetchWord : step (State.reset.withFetchWord 16 0x0260) = .next { State.reset with ckAcc := 0x0060 } := rfl

/-! ## Pure functions (V6, V9, V16 to V24) -/

theorem test_sum16 : sum16 [0xA5, 0x00, 0x60, 0x20, 0x07, 0x00] = 0x012C := by decide
theorem test_encode_least :
    encodeFrame 0x00 0x00 0x00 [] = .ok [0xFF, 0x00, 0xFF, 0xA5, 0x00, 0x00, 0x00, 0x00, 0x00, 0x00, 0xA5] := by decide
theorem test_decode_version_not_checked :
    decodeFrame [0xFF, 0x00, 0xFF, 0xA5, 0x01, 0x60, 0x20, 0x07, 0x00, 0x01, 0x2D] =
      .ok { qFrame with version := 0x01, checksum := 0x012D } := by decide
theorem test_decode_errors :
    [decodeFrame [], decodeFrame (0xFE :: q.drop 1), decodeFrame marker, decodeFrame (q.take 10),
      decodeFrame (q ++ [0x00]), decodeFrame (q.take 10 ++ [0x2D])] =
      [.error .noMarker, .error .noMarker, .error .truncated, .error .truncated, .error .excessBytes,
        .error .checksumMismatch] := by decide
theorem test_parse_request : parseStatus qFrame = none := by decide
theorem test_for_us :
    [0x20, 0x60, 0x0F, 0x21].map (fun d => forUs std { qFrame with destination := d }) = [true, false, true, false] := by
  decide
theorem test_ownAddr : std.ownAddr = 0x20 := by decide
theorem test_assemble_cksum : assembleLine "CKSUM 0xA5, 0, 0x60".toList = .ok [0x0100, 0x02A5, 0x0200, 0x0260] := by decide
theorem test_assemble_word : assembleLine ".word 0x2100 ; reserved".toList = .ok [0x2100] := by decide

/-! ## Single steps -/

theorem test_nop : after (exec .nop idle) = some idle := by decide
theorem test_ckClr : after (exec .ckClr { idle with ckAcc := 0x012C }) = some idle := by decide
theorem test_ckAdd_plain : after (exec (.ckAdd 0x60) { idle with ckAcc := 0x00A5 }) = some { idle with ckAcc := 0x0105 } := by
  decide
theorem test_ckAdd_wraps : after (exec (.ckAdd 0xFF) { idle with ckAcc := 0xFF80 }) = some { idle with ckAcc := 0x007F } := by
  decide
theorem test_txDst : after (exec (.txDst 0xFF) idle) = some { idle with txhDst := 0xFF } := by decide
theorem test_txSrc : after (exec (.txSrc 0x20) idle) = some { idle with txhSrc := 0x20 } := by decide
theorem test_txCmd : after (exec (.txCmd 0x07) idle) = some { idle with txhCmd := 0x07 } := by decide
theorem test_txPush_appends : after (exec (.txPush 0x0B) { idle with txData := [0x0A] }) =
    some { idle with txData := [0x0A, 0x0B] } := by decide
theorem test_txPush_full : after (exec (.txPush 0xAA) (payload 255)) =
    some { payload 255 with txPtl := true, chan := [.ptl .push] } :=
  congrArg (fun t => some t) (if_neg (by rw [payload_length]; decide))
theorem test_txClr : after (exec .txClr { idle with txData := [0x01], txPtl := true, txhDst := 0x60 }) =
    some { idle with txhDst := 0x60 } := by decide
theorem test_txSend_guarded : after (exec .txSend (loaded guarded)) = some (busyWith .preGuard 0 2) := by decide
theorem test_txSend_refused : after (exec .txSend { idle with txPtl := true }) =
    some { idle with txPtl := true, chan := [.ptl .send] } := by decide
theorem test_rxFlush : after (exec .rxFlush (holding std [0xFF, 0x00, 0xFF])) = some idle := by decide
theorem test_illegal : after (exec (.illegal 0xFF00) idle) = some { idle with chan := [.illegalOp 0xFF00] } := by decide
theorem test_writeReg : (after (exec (.writeReg 0x60 0x20 0x0321 0x05DC) idle)).map State.txq =
    some [0xFF, 0x00, 0xFF, 0xA5, 0x00, 0x60, 0x20, 0x01, 0x04, 0x03, 0x21, 0x05, 0xDC, 0x02, 0x2F] := by decide
theorem test_remote : (after (exec (.remoteLocal 0x60 0x20 true) idle)).map State.txq =
    some [0xFF, 0x00, 0xFF, 0xA5, 0x00, 0x60, 0x20, 0x04, 0x01, 0xFF, 0x02, 0x29] := by decide
theorem test_local : (after (exec (.remoteLocal 0x60 0x20 false) idle)).map State.txq =
    some [0xFF, 0x00, 0xFF, 0xA5, 0x00, 0x60, 0x20, 0x04, 0x01, 0x00, 0x01, 0x2A] := by decide
theorem test_setMode : (after (exec (.setMode 0x60 0x20 0x09) idle)).map State.txq =
    some [0xFF, 0x00, 0xFF, 0xA5, 0x00, 0x60, 0x20, 0x05, 0x01, 0x09, 0x01, 0x34] := by decide
theorem test_start : (after (exec (.runStop 0x60 0x20 true) idle)).map State.txq = some run := by decide
theorem test_stop : (after (exec (.runStop 0x60 0x20 false) idle)).map State.txq =
    some [0xFF, 0x00, 0xFF, 0xA5, 0x00, 0x60, 0x20, 0x06, 0x01, 0x04, 0x01, 0x30] := by decide
theorem test_statusQuery : after (exec (.statusQuery 0x60 0x20) (State.resetWith guarded)) =
    some (busyWith .preGuard 0 2) := by decide
theorem test_statusResponse_busy : after (exec (.statusResponse 0x00 0x20 0x60 rspRecord) (busyWith .drain 11 0)) =
    some (busyWith .drain 11 0) := by decide
theorem test_reset_aborts : after (exec .reset (busyWith .sending 5 0)) = some (State.resetWith guarded) := by decide
theorem test_rxByte_frame : after (exec (.rxByte 0x2C) (holding std (q.take 10))) = some { idle with chan := [qEvent] } := by
  decide
/-- The last step of V31 with RX_BUF_DEPTH 11. -/
theorem test_rxByte_overrun : after (exec (.rxByte 0x36) (holding shallow (run.take 11))) =
    some { holding shallow [0x0A, 0x01, 0x36] with chan := [.overrun 0xFF] } := by decide
theorem test_uartTake_last : after (exec .uartTake (busyWith .sending 10 0)) = some (busyWith .drain 11 0) := by decide
theorem test_uartTake_fault : faultOf (exec .uartTake (busyWith .drain 11 0)) = some (.uartTake .drain) := by decide
theorem test_uartEmpty_drain : after (exec .uartEmpty (busyWith .drain 11 0)) = some (busyWith .postGuard 11 1) := by decide
theorem test_uartEmpty_ignored : after (exec .uartEmpty (busyWith .sending 5 0)) = some (busyWith .sending 5 0) := by decide
theorem test_tick_preGuard : after (exec .tick (busyWith .preGuard 0 1)) = some (busyWith .sending 0 0) := by decide
theorem test_tick_postGuard : after (exec .tick (busyWith .postGuard 11 1)) =
    some { loaded guarded with chan := [.txDone 11] } := by decide

/-! ## Values that meet the hypotheses of the obligations -/

theorem test_meets_DecodeEncodeRoundTrip :
    Instr.wf (.illegal 0x2100) = true ∧ Instr.wf (.setMode 0x60 0x20 0x0C) = true ∧
      Instr.wf (.statusResponse 0x01 0x20 0x60 rspRecord) = true := by decide
theorem test_meets_DecodeAnswersWellFormed : decode (.host 0xFFFF) = .ok (.illegal 0xFFFF) := by decide
theorem test_meets_FrameRowsEncodeBack : decode (.frame rsp) = .ok (.statusResponse 0x00 0x20 0x60 rspRecord) := by decide
theorem test_meets_ReservedOpcodesAreReported :
    [0x03, 0x0F, 0x16, 0x1F, 0x21, 0xFF].all
      (fun op => op < 256 ∧ op ∉ [0x00, 0x01, 0x02, 0x10, 0x11, 0x12, 0x13, 0x14, 0x15, 0x20]) = true := by decide
theorem test_meets_EncodeLaysOutTheFrame :
    255 < (List.replicate 256 (0x00 : Byte)).length ∧ (List.replicate 255 (0x00 : Byte)).length ≤ 255 ∧
      ([] : List Byte).length ≤ 255 := by
  rw [List.length_replicate, List.length_replicate]; decide
theorem test_meets_DecodeReportsTheFirstError :
    ((q.take 3).length < 4) ∧ (q.take 4 = marker ∧ (q.take 8).length < 9) ∧
      (9 ≤ (q.take 10).length ∧ (q.take 10).length < 11 + (byteAt (q.take 10) 8).toNat) ∧
      (11 + (byteAt (q ++ [0x00]) 8).toNat < (q ++ [0x00]).length) ∧
      (q.length = 11 + (byteAt q 8).toNat ∧ be16 (byteAt q 9) (byteAt q 10) = sum16 ((q.take 9).drop 3)) ∧
      (be16 0x01 0x2D ≠ sum16 ((q.take 9).drop 3)) := by decide
theorem test_meets_SingleByteCorruptionIsDetected :
    encodeFrame 0x60 0x20 0x06 [0x0A] = .ok run ∧ (0xFE : Byte) ≠ byteAt run 0 ∧ (0xA4 : Byte) ≠ byteAt run 3 ∧
      (0x01 : Byte) ≠ byteAt run 4 ∧ (0x0B : Byte) ≠ byteAt run 9 ∧ 1 < (0x02 : Byte).toNat ∧ (0x00 : Byte).toNat < 1 := by
  decide
theorem test_meets_ReencodingGivesTheBytesBack :
    decodeFrame q = .ok qFrame ∧ qFrame.version = 0x00 ∧
      decodeFrame [0xFF, 0x00, 0xFF, 0xA5, 0x01, 0x60, 0x20, 0x07, 0x00, 0x01, 0x2D] =
        .ok { qFrame with version := 0x01, checksum := 0x012D } ∧ (0x01 : Byte) ≠ 0x00 := by decide
theorem test_meets_SumDetectsOneByteNotOrder :
    (0xFF : Byte) ≠ byteAt [0x00] 0 ∧ ([0x01, 0x02] : List Byte).Perm [0x02, 0x01] := by decide
theorem test_meets_ParseStatusReadsTheResponse :
    (qFrame.data.length ≠ 15) ∧ ({ qFrame with commandId := 0x06, data := rspData } : Frame).commandId ≠ 0x07 ∧
      rspData = [0x0A, 0x09, 0x02, 0x01, 0xF4, 0x0B, 0xB8, 0x20, 0x00, 0x00, 0x00, 0x00, 0x00, 0x0D, 0x1E] := by decide
theorem test_meets_SetModeTakesListedModesOnly : setModeData 0x06 = none ∧ setModeData 0x08 = none ∧ setModeData 0x0D = none := by
  decide
theorem test_meets_AddressClassesDecideForUs :
    [0x0E, 0x0F, 0x10, 0x1F, 0x20, 0x2F, 0x30, 0x5F, 0x60, 0x6F, 0x70, 0xFF].map addrClass =
      [.unassigned, .broadcast, .mainController, .mainController, .remoteController, .remoteController, .unassigned,
        .unassigned, .pump, .pump, .unassigned, .unassigned] := by decide
theorem test_meets_NopChangesNothing : (0x00FF : Half).toNat ≤ 0x00FF ∧ (0x0000 : Half).toNat ≤ 0x00FF := by decide
theorem test_meets_AccumulatorSumsTheBytes : ([0xA5, 0x60] : List Byte).Perm [0x60, 0xA5] := by decide
theorem test_meets_TxPushAppendsOrFlags :
    (payload 0).txData.length < 255 ∧ (payload 254).txData.length < 255 ∧ 255 ≤ (payload 255).txData.length := by
  rw [payload_length, payload_length, payload_length]; decide
theorem test_meets_TxSendFaultsRefusesOrStarts :
    (busyWith .postGuard 11 1).arb ≠ .listen ∧ ({ idle with txPtl := true } : State).txPtl = true ∧
      ((loaded std).arb = .listen ∧ (loaded std).txPtl = false ∧ (loaded std).txData.length ≤ 255 ∧
        (loaded std).params.preGuardTicks = 0) ∧ 0 < (loaded guarded).params.preGuardTicks := by decide
theorem test_meets_TxSend_greatest :
    (payload 255).arb = .listen ∧ (payload 255).txPtl = false ∧ (payload 255).txData.length ≤ 255 :=
  ⟨rfl, rfl, by rw [payload_length]⟩
theorem test_meets_ClearsAndWritesAreIdempotent :
    Instr.nop ∈ [.nop, .ckClr, .rxFlush, .txClr, .txDst 0x60, .txSrc 0x60, .txCmd 0x60] := by decide
/-- A cycle that presents every input event at once. -/
def everything : Machine.Cycle where
  rst := true
  tick := true
  utxEmpty := true
  utxTake := true
  rx := some 0xFF
  host := some 0x1500
theorem test_meets_ResetWritesEveryElement :
    everything.rst = true ∧ ({ idle with pending := [.cycle everything] } : State).pending = .cycle everything :: [] := by
  decide
theorem test_meets_UartTakeAdvancesOrFaults :
    (busyWith .drain 11 0).arb ≠ .sending ∧
      ((busyWith .sending 10 0).arb = .sending ∧ (busyWith .sending 10 0).txi + 1 = (busyWith .sending 10 0).txq.length) ∧
      (busyWith .sending 9 0).txi + 1 ≠ (busyWith .sending 9 0).txq.length := by decide
theorem test_meets_UartEmptyEndsTheDrain :
    (({ busyWith .drain 11 0 with params := std } : State).arb = .drain ∧
      ({ busyWith .drain 11 0 with params := std } : State).params.postGuardTicks = 0) ∧
      ((busyWith .drain 11 0).arb = .drain ∧ 0 < (busyWith .drain 11 0).params.postGuardTicks) ∧ idle.arb ≠ .drain := by
  decide
theorem test_meets_TickCountsTheGuards :
    ((busyWith .preGuard 0 1).arb = .preGuard ∧ (busyWith .preGuard 0 1).gcnt = 1) ∧
      ((busyWith .postGuard 11 1).arb = .postGuard ∧ (busyWith .postGuard 11 1).gcnt = 1) ∧
      1 < (busyWith .preGuard 0 2).gcnt ∧ idle.arb = .listen := by decide
theorem test_meets_RxByteAppendsAndSettles :
    (busyWith .postGuard 11 1).arb ≠ .listen ∧ (idle.arb = .listen ∧ idle.rb.length ≠ idle.params.rxBufDepth) ∧
      ((holding shallow (run.take 11)).arb = .listen ∧
        (holding shallow (run.take 11)).rb.length = (holding shallow (run.take 11)).params.rxBufDepth) := by decide
/-- V33: the step that completes the false candidate emits two events. -/
theorem test_settle_two_events :
    settle std ([0xFF, 0x00, 0xFF, 0xA5, 0x00, 0x10, 0x20, 0x01, 0x20] ++ q ++ List.replicate 23 0x00) =
      ([.cksumErr 0x0000 0x044D, qEvent], [0x00, 0x00, 0x00]) := by decide
theorem test_meets_RequestsPutTheirFrameOnTheLine :
    idle.arb = .listen ∧ (0x0C : Byte).toNat ∈ [0x00, 0x01, 0x02, 0x03, 0x04, 0x05, 0x09, 0x0A, 0x0B, 0x0C] := by decide
theorem test_meets_RequestsFaultWhileBusy :
    (Instr.statusQuery 0x60 0x20).request.isSome = true ∧ (busyWith .sending 5 0).arb ≠ .listen := by decide
theorem test_meets_RequestIsItsHostWords :
    requestPseudo (.runStop 0x60 0x20 true) = some (.start 0x60 0x20) ∧
      expand (.start 0x60 0x20) = .ok [0x1400, 0x1060, 0x1120, 0x1206, 0x130A, 0x1500] := by decide
theorem test_meets_StatusResponseIsDelivered :
    (idle.arb = .listen ∧ idle.rb = [] ∧ 26 ≤ idle.params.rxBufDepth) ∧ (busyWith .drain 11 0).arb ≠ .listen := by decide
theorem test_meets_StepRunsTheDecodedInstruction :
    ({ idle with pending := [Input.only (.rx 0xA5)] } : State).pending = Input.only (.rx 0xA5) :: [] ∧
      decode (.rx 0xA5) = .ok (.rxByte 0xA5) ∧ decode (.frame []) = .error .noMarker := by decide
theorem test_meets_IdleStepChangesNothing :
    idle.pending = [] ∧ ({ idle with pending := [.cycle Cycle.idle] } : State).pending = .cycle Cycle.idle :: [] := by decide
theorem test_meets_SameCycleEventsAreOrdered :
    everything.instrs ≠ [] ∧
      ({ everything with rst := false } : Machine.Cycle).instrs =
        [.tick, .uartEmpty, .uartTake, .rxByte 0xFF, .txSend] := by decide
theorem test_rb_level_width : rbLevelWidth std = 9 ∧ rbLevelWidth shallow = 4 := by decide
theorem test_rb_level_full : (holding shallow (run.take 11)).outputs.rbLevel.toNat = 11 := by decide
theorem test_meets_OutputsShowTheState :
    (payload 255).txData.length ≤ 255 ∧ (holding shallow (run.take 11)).rb.length = shallow.rxBufDepth ∧ (busyWith .sending 3 0).arb = .sending ∧ idle.arb ≠ .sending :=
  ⟨by rw [payload_length], by decide, by decide⟩

theorem q_encoded : IsEncoded q := ⟨0x60, 0x20, 0x07, [], by decide⟩

/-- Three states with the invariant: a full payload in LISTEN, a candidate that waits, a frame on the line. -/
theorem test_inv_flagged : Inv { payload 255 with txPtl := true } where
  payload := (payload_length 255).le
  arbiter := ⟨rfl, rfl, rfl, rfl⟩
  snapshot := fun h => absurd rfl h
  depth := Nat.zero_le _
  buffer := .inl (Nat.zero_lt_succ 3)
  width := by decide
  flag := fun _ => payload_length 255
theorem test_inv_holding : Inv (holding std (q.take 10)) where
  payload := by decide
  arbiter := ⟨rfl, rfl, rfl, rfl⟩
  snapshot := fun h => absurd rfl h
  depth := by decide
  buffer := .inr (.inl (by decide))
  width := by decide
  flag := fun h => nomatch h
/-- A core with `Q` on the line has the invariant when its arbiter does and GCNT fits. -/
theorem inv_busyWith {arb : ArbState} {i gcnt : Nat} (arbiter : ArbInv (busyWith arb i gcnt))
    (width : gcnt < 2 ^ guarded.gcntWidth) : Inv (busyWith arb i gcnt) where
  payload := Nat.zero_le _
  arbiter := arbiter
  snapshot := fun _ => q_encoded
  depth := Nat.zero_le _
  buffer := .inl (Nat.zero_lt_succ 3)
  width := width
  flag := fun h => nomatch h
theorem test_inv_preGuard : Inv (busyWith .preGuard 0 1) := inv_busyWith ⟨rfl, by decide, rfl⟩ (by decide)
theorem test_inv_sending : Inv (busyWith .sending 10 0) := inv_busyWith ⟨rfl, by decide, rfl⟩ (by decide)
theorem test_inv_drain : Inv (busyWith .drain 11 0) := inv_busyWith ⟨rfl, rfl, rfl⟩ (by decide)
theorem test_inv_postGuard : Inv (busyWith .postGuard 11 1) := inv_busyWith ⟨rfl, by decide, rfl⟩ (by decide)
theorem test_inv_loaded : Inv (loaded guarded) where
  payload := by decide
  arbiter := ⟨rfl, rfl, rfl, rfl⟩
  snapshot := fun h => absurd rfl h
  depth := by decide
  buffer := .inl (by decide)
  width := by decide
  flag := fun h => nomatch h

theorem test_meets_StepKeepsTheInvariant :
    Inv (busyWith .sending 10 0) ∧ after (step (busyWith .sending 10 0)) = some (busyWith .sending 10 0) :=
  ⟨test_inv_sending, by decide⟩
theorem test_meets_EventsAreNeverWithdrawn :
    after (step { idle with pending := [Input.only (.host 0x2100)] }) = some { idle with chan := [.illegalOp 0x2100] } := by
  decide
theorem test_meets_OnlyInvalidModesAreRefused : Instr.wf .txSend = true ∧ setModeData 0xFF = none := by decide
/-- One step for each clause of the statement. -/
theorem test_meets_RegistersHaveTheirWritersOnly :
    after (exec .reset { idle with ckAcc := 0x0001 }) = some idle ∧
      (after (exec (.txPush 0x01) idle)).map State.txData = some [0x01] ∧
      after (exec .txClr { idle with txPtl := true }) = some idle ∧
      (after (exec (.statusQuery 0x60 0x20) idle)).map State.txhDst = some 0x60 ∧
      (after (exec (.rxByte 0xFF) idle)).map State.rb = some [0xFF] ∧
      (after (exec .txSend (loaded guarded))).map (fun t => (t.txq, t.arb, t.de, t.gcnt)) = some (q, .preGuard, true, 2) ∧
      (after (exec .uartTake (busyWith .sending 3 0))).map State.txi = some 4 ∧
      (after (exec .tick (busyWith .postGuard 11 1))).map State.de = some false := by decide
/-- One step for each row of the table but the last, from a state with the invariant. -/
theorem test_meets_ArbiterFollowsItsTable_send :
    Inv (loaded guarded) ∧ after (exec .txSend (loaded guarded)) = some (busyWith .preGuard 0 2) :=
  ⟨test_inv_loaded, by decide⟩
theorem test_meets_ArbiterFollowsItsTable_request :
    Inv (loaded guarded) ∧ after (exec (.statusQuery 0x60 0x20) (loaded guarded)) = some (busyWith .preGuard 0 2) :=
  ⟨test_inv_loaded, by decide⟩
theorem test_meets_ArbiterFollowsItsTable_preGuard :
    Inv (busyWith .preGuard 0 1) ∧ after (exec .tick (busyWith .preGuard 0 1)) = some (busyWith .sending 0 0) :=
  ⟨test_inv_preGuard, by decide⟩
theorem test_meets_ArbiterFollowsItsTable_take :
    Inv (busyWith .sending 10 0) ∧ after (exec .uartTake (busyWith .sending 10 0)) = some (busyWith .drain 11 0) :=
  ⟨test_inv_sending, by decide⟩
theorem test_meets_ArbiterFollowsItsTable_drain :
    Inv (busyWith .drain 11 0) ∧ after (exec .uartEmpty (busyWith .drain 11 0)) = some (busyWith .postGuard 11 1) :=
  ⟨test_inv_drain, by decide⟩
theorem test_meets_ArbiterFollowsItsTable_postGuard :
    Inv (busyWith .postGuard 11 1) ∧
      after (exec .tick (busyWith .postGuard 11 1)) = some { loaded guarded with chan := [.txDone 11] } :=
  ⟨test_inv_postGuard, by decide⟩
/-- The last row of the table. -/
theorem test_meets_ArbiterFollowsItsTable_reset :
    Inv (busyWith .sending 10 0) ∧ after (exec .reset (busyWith .sending 10 0)) = some (State.resetWith guarded) :=
  ⟨test_inv_sending, by decide⟩
theorem test_meets_TransmissionIsIsolated :
    (after (exec .uartTake (busyWith .sending 3 0)) = some (busyWith .sending 4 0) ∧
      (busyWith .sending 3 0).arb ≠ .listen ∧ (busyWith .sending 4 0).arb ≠ .listen) ∧
      (Instr.txPush 0x01).isHostOp = true ∧
      (after (exec (.txPush 0x01) (busyWith .sending 3 0))).map State.txData = some [0x01] := by decide
theorem test_meets_TxDoneMarksTheReturnToListen :
    (after (exec .tick (busyWith .postGuard 11 1))).map State.chan = some ((busyWith .postGuard 11 1).chan ++ [.txDone 11]) := by
  decide
theorem test_meets_TransmissionRunsToItsEnd :
    Inv (loaded guarded) ∧ (loaded guarded).arb = .listen ∧ (loaded guarded).txPtl = false ∧
      1 < (transmission (loaded guarded)).length := ⟨test_inv_loaded, by decide⟩
theorem test_meets_BytesAreOfferedInOrder :
    Inv (loaded guarded) ∧ (loaded guarded).arb = .listen ∧ (loaded guarded).txPtl = false ∧
      encodeFrame (loaded guarded).txhDst (loaded guarded).txhSrc (loaded guarded).txhCmd (loaded guarded).txData = .ok q ∧
      10 < q.length := ⟨test_inv_loaded, by decide⟩
theorem test_meets_NoOverrunAtFullDepth :
    Inv (holding std (q.take 10)) ∧ 266 ≤ (holding std (q.take 10)).params.rxBufDepth ∧
      (after (exec (.rxByte 0x2C) (holding std (q.take 10)))).map State.chan = some [qEvent] :=
  ⟨test_inv_holding, by decide⟩
theorem test_meets_FragmentationDoesNotMatter :
    RbWaits (holding std (q.take 9)).rb ∧ (holding std (q.take 9)).arb = .listen ∧
      (after (execAll ([0x01, 0x2C].map Instr.rxByte) (holding std (q.take 9)))).map State.chan = some [qEvent] :=
  ⟨.inr (.inl (by decide)), by decide⟩
theorem test_meets_DesyncIsRecovered :
    idle.arb = .listen ∧ idle.rb = [] ∧ 266 ≤ idle.params.rxBufDepth ∧ encodeFrame 0x60 0x20 0x07 [] = .ok q ∧
      decodeFrame q = .ok qFrame ∧ ((0x60, 0x20) : Byte × Byte) ≠ (0x03, 0x48) ∧
      encodeFrame 0x03 0x48 0x07 [] = .ok [0xFF, 0x00, 0xFF, 0xA5, 0x00, 0x03, 0x48, 0x07, 0x00, 0x00, 0xF7] ∧
      decodeFrame [0xFF, 0x00, 0xFF, 0xA5, 0x00, 0x03, 0x48, 0x07, 0x00, 0x00, 0xF7] =
        .ok { qFrame with destination := 0x03, source := 0x48, checksum := 0x00F7 } := by decide
theorem test_meets_FramesFitTheBuffer :
    (holding shallow (q.take 10)).rb.length ≤ (holding shallow (q.take 10)).params.rxBufDepth ∧
      after (exec (.rxByte 0x2C) (holding shallow (q.take 10))) = some { State.resetWith shallow with chan := [qEvent] } := by
  decide
/-- One reported event of each of the three kinds. -/
theorem test_meets_ReportedEventsAreSound :
    (after (exec (.rxByte 0x2D) (holding std (q.take 10)))).map State.chan = some [.cksumErr 0x012D 0x012C] ∧
      (after (exec (.rxByte 0x2C) (holding std (q.take 10)))).map State.chan = some [qEvent] ∧
      (after (exec (.rxByte 0x36) (holding shallow (run.take 11)))).map State.chan = some [.overrun 0xFF] := by decide
theorem test_meets_EventsOfAByteAreBounded :
    (holding shallow (run.take 11)).rb.length ≤ (holding shallow (run.take 11)).params.rxBufDepth ∧
      (after (exec (.rxByte 0x36) (holding shallow (run.take 11)))).map State.chan = some [.overrun 0xFF] := by decide
theorem test_meets_OtherStepsEmitAtMostOneEvent :
    (after (exec .txSend { idle with txPtl := true })).map State.chan = some (idle.chan ++ [.ptl .send]) := by decide

end Sys2Proof.Tests
end

section
/-! What one step does, an equation for each answer of `takeInput` and `decode`, and the obligations on presenting an input
(00_scope.md R6, R7; 44_control.md R230; 60_exceptions.md R262). -/

namespace Sys2Proof.Machine

variable {s : State} {rest : List Input} {raw : Raw}

theorem step_of_nothing_taken (taken : takeInput s.pending = none) : step s = .next s := by
  simp [step, taken]

theorem step_of_empty_cycle_taken (taken : takeInput s.pending = some (none, rest)) :
    step s = .next { s with pending := rest } := by
  simp [step, taken]

theorem step_of_decoded {i : Instr} (taken : takeInput s.pending = some (some raw, rest)) (decoded : decode raw = .ok i) :
    step s = exec i { s with pending := rest } := by
  simp [step, taken, decoded]

theorem step_of_undecoded {e : DecodeError} (taken : takeInput s.pending = some (some raw, rest))
    (undecoded : decode raw = .error e) : step s = .refused (.undecoded e) := by
  simp [step, taken, undecoded]

@[simp] theorem takeInput_nil : takeInput [] = none := rfl

/-- A cycle that presents nothing is taken from the inputs, and no raw input comes of it. -/
@[simp] theorem takeInput_idle (rest : List Input) : takeInput (.cycle Cycle.idle :: rest) = some (none, rest) := rfl

/-- Settles O38: an input that presents one raw input is taken whole, so the step turns on what `decode` answers for it. -/
theorem stepRunsTheDecodedInstruction : Obligations.StepRunsTheDecodedInstruction := by
  intro raw s rest front
  have taken : takeInput s.pending = some (some raw, rest) := by
    rw [front, takeInput_only]
  exact ⟨fun _ decoded => step_of_decoded taken decoded, fun _ undecoded => step_of_undecoded taken undecoded⟩

/-- Settles O39: with no input nothing is taken, and of an idle cycle only the cycle itself is. -/
theorem idleStepChangesNothing : Obligations.IdleStepChangesNothing := by
  constructor
  · intro s none_pending
    exact step_of_nothing_taken (by rw [none_pending, takeInput_nil])
  · intro s rest front
    exact step_of_empty_cycle_taken (by rw [front, takeInput_idle])

end Sys2Proof.Machine
end

section
/-! What `exec` answers to a request row (30_encoding.md R84), said once for all of them. -/

namespace Sys2Proof.Machine

variable {s t : State} {i : Instr}

theorem setModeData_eq_some {m : Byte} {data : List Byte} (h : setModeData m = some data) : data = [m] := by
  simp only [setModeData, Option.map_eq_some_iff] at h
  obtain ⟨_, -, rfl⟩ := h
  rfl

theorem exec_of_request {dst src cmd : Byte} {data : List Byte} (h : i.request = some (dst, src, cmd, data)) :
    exec i s = sendRequest dst src cmd data s := by
  cases i with
  | writeReg | remoteLocal | runStop | statusQuery =>
    simp only [Instr.request, Option.some.injEq, Prod.mk.injEq] at h
    obtain ⟨rfl, rfl, rfl, rfl⟩ := h
    rfl
  | setMode =>
    simp only [Instr.request, Option.map_eq_some_iff, Prod.mk.injEq] at h
    obtain ⟨_, listed, rfl, rfl, rfl, rfl⟩ := h
    simp [exec, execSetMode, listed]
  | _ => cases h

/-- No payload layout of 41_codec.md section 5 is longer than four bytes. -/
theorem request_length {dst src cmd : Byte} {data : List Byte} (h : i.request = some (dst, src, cmd, data)) :
    data.length ≤ 4 := by
  cases i with
  | writeReg | statusQuery => cases h; simp [wrReg, statusQueryData]
  | remoteLocal _ _ flag | runStop _ _ flag => cases h; cases flag <;> decide
  | setMode =>
    simp only [Instr.request, Option.map_eq_some_iff, Prod.mk.injEq] at h
    obtain ⟨_, listed, -, -, -, rfl⟩ := h
    simp [setModeData_eq_some listed]
  | _ => cases h

/-- A request row is a request, or SET_MODE with a byte for which `set_mode` is Invalid. -/
theorem request_of_isRequest (h : i.isRequest = true) :
    (∃ dst src cmd data, i.request = some (dst, src, cmd, data)) ∨
      ∃ dst src m, i = .setMode dst src m ∧ setModeData m = none := by
  cases i with
  | writeReg | remoteLocal | runStop | statusQuery => exact .inl ⟨_, _, _, _, rfl⟩
  | setMode dst src m =>
    cases listed : setModeData m with
    | none => exact .inr ⟨dst, src, m, rfl, listed⟩
    | some data => exact .inl ⟨dst, src, 0x05, data, by simp [Instr.request, listed]⟩
  | _ => cases h

theorem exec_setMode_invalid {dst src m : Byte} (h : setModeData m = none) :
    exec (.setMode dst src m) s = .refused (.invalidMode m) := by
  simp [exec, execSetMode, h]

/-- A request that answers a next state found the line idle, and has loaded its registers and put its frame on the line. -/
theorem exec_request_cases (request : i.isRequest = true) (h : exec i s = .next t) :
    ∃ dst src cmd data, i.request = some (dst, src, cmd, data) ∧ data.length ≤ 255 ∧ s.arb = .listen ∧
      t = startFrame (frameBytes 0x00 dst src cmd data) (loadRequest dst src cmd data s) := by
  obtain ⟨dst, src, cmd, data, fields⟩ | ⟨dst, src, m, rfl, unlisted⟩ := request_of_isRequest request
  · have fits : data.length ≤ 255 := (request_length fields).trans (by decide)
    rw [exec_of_request fields] at h
    obtain ⟨-, fault⟩ | ⟨listening, started⟩ := sendRequest_cases dst src cmd data fits s
    · rw [fault] at h; cases h
    · rw [started] at h
      exact ⟨dst, src, cmd, data, fields, fits, listening, (Host.Outcome.next.inj h).symm⟩
  · rw [exec_setMode_invalid unlisted] at h; cases h

end Sys2Proof.Machine
end

section
/-! The status outputs (10_state.md R34 to R37). -/

namespace Sys2Proof.Machine

variable {s : State}

theorem txLen_toNat (h : s.txData.length ≤ 255) : s.txLen.toNat = s.txData.length := len_toNat _ h

/-- Every level that RB can have fits the width of `rb_level` (R36). -/
theorem rb_length_lt (h : s.rb.length ≤ s.params.rxBufDepth) : s.rb.length < 2 ^ bitlen s.params.rxBufDepth :=
  h.trans_lt (lt_two_pow_bitlen _)

theorem rbLevel_toNat (h : s.rb.length ≤ s.params.rxBufDepth) : s.rbLevel.toNat = s.rb.length := by
  rw [State.rbLevel, BitVec.toNat_ofNat]
  exact Nat.mod_eq_of_lt (rb_length_lt h)

theorem busy_iff : s.busy = true ↔ s.arb ≠ .listen := by simp [State.busy]

theorem utxValid_iff : s.utxValid = true ↔ s.arb = .sending := by simp [State.utxValid]

theorem utxData_offered (h : s.arb = .sending) : s.utxData = byteAt s.txq s.txi := if_pos (utxValid_iff.mpr h)

theorem utxData_idle (h : s.arb ≠ .sending) : s.utxData = 0x00 := if_neg (mt utxValid_iff.mp h)

/-- Settles O41: the outputs in widths of their own by the lemmas above, every other one is its register. -/
theorem outputsShowTheState : Obligations.OutputsShowTheState := by
  intro s
  refine ⟨rfl, rfl, rfl, rfl, txLen_toNat, rfl, rfl, fun fits => ⟨rb_length_lt fits, rbLevel_toNat fits⟩,
    busy_iff, utxValid_iff, utxData_offered, utxData_idle, ?_⟩
  show s.arb.code.toNat = _
  cases s.arb <;> rfl

end Sys2Proof.Machine
end

section
/-! The invariant of 10_state.md R41: what of the state each of its items reads, that each shared operation keeps it, and so
every step. -/

namespace Sys2Proof

open Machine

variable {s t : State}

/-! ## The items of the invariant -/

theorem arbInv_listen (h : s.arb = .listen) : ArbInv s ↔ s.de = false ∧ s.txq = [] ∧ s.txi = 0 ∧ s.gcnt = 0 := by
  simp [ArbInv, h]

theorem arbInv_preGuard (h : s.arb = .preGuard) : ArbInv s ↔ s.de = true ∧ 1 ≤ s.gcnt ∧ s.txi = 0 := by
  simp [ArbInv, h]

theorem arbInv_sending (h : s.arb = .sending) : ArbInv s ↔ s.de = true ∧ s.txi < s.txq.length ∧ s.gcnt = 0 := by
  simp [ArbInv, h]

theorem arbInv_drain (h : s.arb = .drain) : ArbInv s ↔ s.de = true ∧ s.txi = s.txq.length ∧ s.gcnt = 0 := by
  simp [ArbInv, h]

theorem arbInv_postGuard (h : s.arb = .postGuard) :
    ArbInv s ↔ s.de = true ∧ 1 ≤ s.gcnt ∧ s.txi = s.txq.length := by
  simp [ArbInv, h]

theorem isEncoded_frameBytes (dst src cmd : Byte) {data : List Byte} (fits : data.length ≤ 255) :
    IsEncoded (frameBytes 0x00 dst src cmd data) :=
  ⟨dst, src, cmd, data, if_neg (by omega)⟩

theorem length_of_isEncoded {f : List Byte} (h : IsEncoded f) : 11 ≤ f.length := by
  obtain ⟨dst, src, cmd, data, encoded⟩ := h
  unfold encodeFrame at encoded
  split at encoded
  · cases encoded
  · cases encoded; simp

/-- The guard counts fit GCNT (00_scope.md R9). -/
theorem lt_two_pow_gcntWidth {p : Params} {n : Nat} (h : n ≤ max p.preGuardTicks p.postGuardTicks) :
    n < 2 ^ p.gcntWidth :=
  calc n ≤ max p.preGuardTicks p.postGuardTicks := h
    _ < 2 ^ bitlen (max p.preGuardTicks p.postGuardTicks) := lt_two_pow_bitlen _
    _ ≤ 2 ^ p.gcntWidth := Nat.pow_le_pow_right (by decide) (Nat.le_add_right _ _)

/-- RB waits where the loop of 42_reassembler.md R163 returns. -/
theorem rbWaits_of_settleTurn_none {p : Params} {rb : List Byte} (h : settleTurn p rb = none) : RbWaits rb := by
  cases settleTurn_cases p rb with
  | waitMarker short => exact .inl short
  | waitHeader yes short => exact .inr (.inl ⟨yes, short⟩)
  | waitFrame yes long short => exact .inr (.inr ⟨yes, long, short⟩)
  | garbage _ _ goes | accept _ _ _ _ goes | resync _ _ _ _ goes => rw [h] at goes; cases goes

/-! ## What the invariant reads -/

/-- The invariant does not read CK_ACC, the header registers, the pending inputs and the event channel. -/
theorem Inv.with_unread (inv : Inv s) {x : Half} {dst src cmd : Byte} {pending : List Input} {chan : List Event} :
    Inv { s with ckAcc := x, txhDst := dst, txhSrc := src, txhCmd := cmd, pending := pending, chan := chan } :=
  ⟨inv.payload, inv.arbiter, inv.snapshot, inv.depth, inv.buffer, inv.width, inv.flag⟩

theorem Inv.with_payload (inv : Inv s) {data : List Byte} {ptl : Bool} (payload : data.length ≤ 255)
    (flag : ptl = true → data.length = 255) : Inv { s with txData := data, txPtl := ptl } :=
  ⟨payload, inv.arbiter, inv.snapshot, inv.depth, inv.buffer, inv.width, flag⟩

theorem Inv.with_rb (inv : Inv s) {rb : List Byte} (depth : rb.length ≤ s.params.rxBufDepth) (buffer : RbWaits rb) :
    Inv { s with rb := rb } :=
  ⟨inv.payload, inv.arbiter, inv.snapshot, depth, buffer, inv.width, inv.flag⟩

/-- A state that differs from one with the invariant in the arbiter's elements only. -/
theorem Inv.with_arbiter (inv : Inv s) {txq : List Byte} {txi : Nat} {arb : ArbState} {de : Bool} {gcnt : Nat}
    (arbiter : ArbInv { s with txq := txq, txi := txi, arb := arb, de := de, gcnt := gcnt })
    (snapshot : arb ≠ .listen → IsEncoded txq) (width : gcnt < 2 ^ s.params.gcntWidth) :
    Inv { s with txq := txq, txi := txi, arb := arb, de := de, gcnt := gcnt } :=
  ⟨inv.payload, arbiter, snapshot, inv.depth, inv.buffer, width, inv.flag⟩

/-! ## Reset -/

theorem inv_resetWith (p : Params) : Inv (State.resetWith p) where
  payload := Nat.zero_le _
  arbiter := ⟨rfl, rfl, rfl, rfl⟩
  snapshot := fun busy => absurd rfl busy
  depth := Nat.zero_le _
  buffer := .inl (Nat.zero_lt_succ 3)
  width := Nat.two_pow_pos _
  flag := nofun

theorem inv_resetCore (s : State) : Inv (resetCore s) := (inv_resetWith s.params).with_unread

/-- Settles O43: every register at its reset value has the items of R41, whatever the parameters. -/
theorem resetMeetsTheInvariant : Obligations.ResetMeetsTheInvariant := ⟨inv_resetWith, inv_resetWith _⟩

/-! ## The operations of the host -/

theorem Inv.emit (inv : Inv s) (evs : List Event) : Inv (emit evs s) := inv.with_unread

theorem Inv.pushPayload (inv : Inv s) (b : Byte) : Inv (pushPayload b s) := by
  by_cases room : s.txData.length < 255
  · rw [pushPayload_room b room]
    refine inv.with_payload (by simp; omega) fun flagged => ?_
    have := inv.flag flagged
    omega
  · rw [pushPayload_full b room]
    have full : s.txData.length = 255 := by have := inv.payload; omega
    exact (inv.with_payload (ptl := true) inv.payload fun _ => full).with_unread

theorem Inv.clearPayload (inv : Inv s) : Inv (clearPayload s) :=
  inv.with_payload (Nat.zero_le _) nofun

theorem Inv.loadRequest (inv : Inv s) (dst src cmd : Byte) {data : List Byte} (fits : data.length ≤ 255) :
    Inv (loadRequest dst src cmd data s) :=
  (inv.with_payload (ptl := false) fits nofun).with_unread

/-- A frame put on an idle line: with no pre-transmit guard GCNT stays 0, and else it holds a count that fits. -/
theorem Inv.startFrame (inv : Inv s) (listening : s.arb = .listen) {f : List Byte} (encoded : IsEncoded f) :
    Inv (startFrame f s) := by
  obtain ⟨-, -, -, gcnt⟩ := (arbInv_listen listening).mp inv.arbiter
  have long := length_of_isEncoded encoded
  by_cases unguarded : s.params.preGuardTicks = 0
  · have arbiter : ArbInv (Machine.startFrame f s) :=
      (arbInv_sending (by simp [unguarded])).mpr ⟨rfl, by simp; omega, by simp [unguarded, gcnt]⟩
    exact inv.with_arbiter arbiter (fun _ => encoded) (by rw [if_pos unguarded]; exact inv.width)
  · have arbiter : ArbInv (Machine.startFrame f s) :=
      (arbInv_preGuard (by simp [unguarded])).mpr ⟨rfl, by simp [unguarded]; omega, rfl⟩
    exact inv.with_arbiter arbiter (fun _ => encoded)
      (by rw [if_neg unguarded]; exact lt_two_pow_gcntWidth (le_max_left ..))

theorem Inv.sendPayload (inv : Inv s) (h : sendPayload s = .next t) : Inv t := by
  obtain ⟨listening, ⟨-, rfl⟩ | ⟨-, fits, rfl⟩ | ⟨-, -, rfl⟩⟩ := sendPayload_cases h
  · exact inv.emit _
  · exact inv.startFrame listening (isEncoded_frameBytes _ _ _ fits)
  · exact inv.emit _

/-! ## UART and guards -/

/-- `finish()` with GCNT counted down to 0: the items of LISTEN hold whatever the other elements of the arbiter were. -/
theorem Inv.finish_of_gcnt (inv : Inv s) {gcnt : Nat} (zero : gcnt = 0) : Inv (finish { s with gcnt := gcnt }) := by
  have listen : Inv { s with arb := .listen, de := false, txq := [], txi := 0, gcnt := gcnt } :=
    inv.with_arbiter ⟨rfl, rfl, rfl, zero⟩ (fun busy => absurd rfl busy) (zero ▸ Nat.two_pow_pos _)
  exact listen.with_unread

theorem Inv.takeByte (inv : Inv s) (h : takeByte s = .next t) : Inv t := by
  obtain ⟨sending, taken⟩ := takeByte_cases h
  obtain ⟨de, inside, gcnt⟩ := (arbInv_sending sending).mp inv.arbiter
  have encoded : IsEncoded s.txq := inv.snapshot (by simp [sending])
  obtain ⟨last, rfl⟩ | ⟨more, rfl⟩ := taken
  · exact inv.with_arbiter ⟨de, last, gcnt⟩ (fun _ => encoded) inv.width
  · have offered : s.txi + 1 < s.txq.length := by omega
    have arbiter : ArbInv { s with txi := s.txi + 1 } :=
      (arbInv_sending (s := { s with txi := s.txi + 1 }) sending).mpr ⟨de, offered, gcnt⟩
    exact inv.with_arbiter arbiter (fun _ => encoded) inv.width

theorem Inv.uartDrained (inv : Inv s) : Inv (uartDrained s) := by
  obtain ⟨draining, -, e⟩ | ⟨draining, guarded, e⟩ | ⟨-, e⟩ := uartDrained_cases s <;> rw [e]
  · obtain ⟨-, -, gcnt⟩ := (arbInv_drain draining).mp inv.arbiter
    exact inv.finish_of_gcnt gcnt
  · obtain ⟨de, sent, -⟩ := (arbInv_drain draining).mp inv.arbiter
    exact inv.with_arbiter ⟨de, Nat.pos_of_ne_zero guarded, sent⟩
      (fun _ => inv.snapshot (by simp [draining])) (lt_two_pow_gcntWidth (le_max_right ..))
  · exact inv

/-- A TICK in PRE_GUARD: the guard ends at GCNT = 0 only, with the whole frame still to send. -/
theorem Inv.tickGuard_preGuard (inv : Inv s) (pre : s.arb = .preGuard) : Inv (tickGuard s) := by
  obtain ⟨de, -, txi⟩ := (arbInv_preGuard pre).mp inv.arbiter
  have encoded : IsEncoded s.txq := inv.snapshot (by simp [pre])
  have long := length_of_isEncoded encoded
  have width : s.gcnt - 1 < 2 ^ s.params.gcntWidth := (Nat.sub_le _ _).trans_lt inv.width
  rw [Machine.tickGuard_preGuard pre]
  split
  · next ends =>
    have offered : s.txi < s.txq.length := by omega
    exact inv.with_arbiter ⟨de, offered, ends⟩ (fun _ => encoded) width
  · next goes =>
    have arbiter : ArbInv { s with gcnt := s.gcnt - 1 } :=
      (arbInv_preGuard (s := { s with gcnt := s.gcnt - 1 }) pre).mpr ⟨de, Nat.one_le_iff_ne_zero.mpr goes, txi⟩
    exact inv.with_arbiter arbiter (fun _ => encoded) width

/-- A TICK in POST_GUARD: the guard ends at GCNT = 0 only, and the line returns to LISTEN. -/
theorem Inv.tickGuard_postGuard (inv : Inv s) (post : s.arb = .postGuard) : Inv (tickGuard s) := by
  obtain ⟨de, -, sent⟩ := (arbInv_postGuard post).mp inv.arbiter
  have width : s.gcnt - 1 < 2 ^ s.params.gcntWidth := (Nat.sub_le _ _).trans_lt inv.width
  rw [Machine.tickGuard_postGuard post]
  split
  · next ends => exact inv.finish_of_gcnt ends
  · next goes =>
    have arbiter : ArbInv { s with gcnt := s.gcnt - 1 } :=
      (arbInv_postGuard (s := { s with gcnt := s.gcnt - 1 }) post).mpr ⟨de, Nat.one_le_iff_ne_zero.mpr goes, sent⟩
    exact inv.with_arbiter arbiter inv.snapshot width

theorem Inv.tickGuard (inv : Inv s) : Inv (tickGuard s) := by
  by_cases pre : s.arb = .preGuard
  · exact inv.tickGuard_preGuard pre
  by_cases post : s.arb = .postGuard
  · exact inv.tickGuard_postGuard post
  · rw [tickGuard_other pre post]; exact inv

/-! ## Reception -/

/-- The loop leaves an end of RB on which it returns at once. -/
theorem Inv.receiveByte (inv : Inv s) (b : Byte) : Inv (receiveByte b s) := by
  by_cases listening : s.arb = .listen
  · rw [receiveByte_listen b listening]
    obtain ⟨⟨k, left⟩, stops⟩ := settle_drops (p := s.params) (appendByte s.params b s.rb).2
    have depth : (settle s.params (appendByte s.params b s.rb).2).2.length ≤ s.params.rxBufDepth :=
      calc _ ≤ (appendByte s.params b s.rb).2.length := by rw [left, List.length_drop]; exact Nat.sub_le _ _
        _ ≤ s.params.rxBufDepth := appendByte_length b inv.depth
    exact (inv.with_rb depth (rbWaits_of_settleTurn_none stops)).with_unread
  · rw [receiveByte_busy b listening]; exact inv

theorem Inv.receiveBytes (inv : Inv s) (bs : List Byte) : Inv (receiveBytes bs s) := by
  induction bs generalizing s with
  | nil => exact inv
  | cons b bs ih => rw [receiveBytes_cons]; exact ih (inv.receiveByte b)

/-! ## Every step -/

theorem Inv.exec {i : Instr} (inv : Inv s) (h : exec i s = .next t) : Inv t := by
  by_cases request : i.isRequest = true
  · obtain ⟨dst, src, cmd, data, -, fits, listening, rfl⟩ := exec_request_cases request h
    exact (inv.loadRequest dst src cmd fits).startFrame listening (isEncoded_frameBytes _ _ _ fits)
  cases i with
  | writeReg | remoteLocal | setMode | runStop | statusQuery => exact absurd rfl request
  | txSend => exact inv.sendPayload h
  | uartTake => exact inv.takeByte h
  | nop => obtain rfl := Host.Outcome.next.inj h; exact inv
  | ckClr | ckAdd | txDst | txSrc | txCmd => obtain rfl := Host.Outcome.next.inj h; exact inv.with_unread
  | illegal => obtain rfl := Host.Outcome.next.inj h; exact inv.emit _
  | txPush b => obtain rfl := Host.Outcome.next.inj h; exact inv.pushPayload b
  | txClr => obtain rfl := Host.Outcome.next.inj h; exact inv.clearPayload
  | rxFlush => obtain rfl := Host.Outcome.next.inj h; exact inv.with_rb (Nat.zero_le _) (.inl (Nat.zero_lt_succ 3))
  | statusResponse => obtain rfl := Host.Outcome.next.inj h; exact inv.receiveBytes _
  | reset => obtain rfl := Host.Outcome.next.inj h; exact inv_resetCore s
  | rxByte b => obtain rfl := Host.Outcome.next.inj h; exact inv.receiveByte b
  | uartEmpty => obtain rfl := Host.Outcome.next.inj h; exact inv.uartDrained
  | tick => obtain rfl := Host.Outcome.next.inj h; exact inv.tickGuard

/-- Settles O42: a step takes an input, which the invariant does not read, and runs at most one instruction, which keeps
it. -/
theorem stepKeepsTheInvariant : Obligations.StepKeepsTheInvariant := by
  intro s t inv h
  obtain ⟨-, rfl⟩ | ⟨rest, -, rfl⟩ | ⟨raw, rest, i, -, -, ran⟩ := step_cases h
  · exact inv
  · exact inv.with_unread
  · exact Inv.exec (s := { s with pending := rest }) inv.with_unread ran

end Sys2Proof
end

section
/-! Which instructions write each register (10_state.md R23 to R33). -/

namespace Sys2Proof.Machine

/-- A TICK writes ARB_STATE and GCNT, or ends the transmission. -/
theorem tickGuard_cases (s : State) :
    (∃ arb gcnt, tickGuard s = { s with arb := arb, gcnt := gcnt }) ∨
      ∃ gcnt, tickGuard s = finish { s with gcnt := gcnt } := by
  by_cases pre : s.arb = .preGuard
  · rw [tickGuard_preGuard pre]
    split
    · exact .inl ⟨_, _, rfl⟩
    · exact .inl ⟨s.arb, _, rfl⟩
  by_cases post : s.arb = .postGuard
  · rw [tickGuard_postGuard post]
    split
    · exact .inr ⟨_, rfl⟩
    · exact .inl ⟨s.arb, _, rfl⟩
  · exact .inl ⟨s.arb, s.gcnt, tickGuard_other pre post⟩

/-- Settles O47: for each instruction the next states it can answer are written out; there every register that the instruction
is no writer of is as it was. -/
theorem registersHaveTheirWritersOnly : Obligations.RegistersHaveTheirWritersOnly := by
  intro i s t h
  by_cases request : i.isRequest = true
  · obtain ⟨dst, src, cmd, data, -, -, -, rfl⟩ := exec_request_cases request h
    simp [request, loadRequest]
  cases i with
  | writeReg | remoteLocal | setMode | runStop | statusQuery => exact absurd rfl request
  | nop | ckClr | ckAdd | txDst | txSrc | txCmd | txClr | rxFlush | illegal | reset =>
    obtain rfl := Host.Outcome.next.inj h
    simp
  | txPush b =>
    obtain rfl := Host.Outcome.next.inj h
    by_cases room : s.txData.length < 255
    · simp [pushPayload_room b room]
    · simp [pushPayload_full b room]
  | txSend =>
    obtain ⟨-, ⟨-, rfl⟩ | ⟨-, -, rfl⟩ | ⟨-, -, rfl⟩⟩ := sendPayload_cases h <;> simp
  | uartTake =>
    obtain ⟨-, ⟨-, rfl⟩ | ⟨-, rfl⟩⟩ := takeByte_cases h <;> simp
  | uartEmpty =>
    obtain rfl := Host.Outcome.next.inj h
    obtain ⟨-, -, e⟩ | ⟨-, -, e⟩ | ⟨-, e⟩ := uartDrained_cases s <;> simp [e]
  | tick =>
    obtain rfl := Host.Outcome.next.inj h
    obtain ⟨arb, gcnt, e⟩ | ⟨gcnt, e⟩ := tickGuard_cases s <;> simp [e]
  | rxByte b =>
    obtain rfl := Host.Outcome.next.inj h
    obtain ⟨rb, evs, e⟩ := receiveByte_frame b s
    simp [e]
  | statusResponse version dst src r =>
    obtain rfl := Host.Outcome.next.inj h
    obtain ⟨rb, evs, e⟩ := receiveBytes_frame (frameBytes version dst src 0x07 (statusData r)) s
    rw [e]
    simp

end Sys2Proof.Machine
end

section
/-! The bus address map (20_memory.md R58): what the address classes and the addresses of the model are as numbers. -/

namespace Sys2Proof.Machine

variable {a : Byte}

theorem ownAddr_toNat (p : Params) : p.ownAddr.toNat = 0x20 + p.ownAddrLow.toNat := by
  rw [Params.ownAddr, BitVec.toNat_append, Nat.shiftLeft_eq, Nat.mul_comm, ← Nat.two_pow_add_eq_or_of_lt p.ownAddrLow.isLt]
  rfl

/-- The class of a byte, with its ranges read as numbers. -/
theorem addrClass_eq (a : Byte) :
    addrClass a =
      if a.toNat = 0x0F then .broadcast
      else if 0x10 ≤ a.toNat ∧ a.toNat ≤ 0x1F then .mainController
      else if 0x20 ≤ a.toNat ∧ a.toNat ≤ 0x2F then .remoteController
      else if 0x60 ≤ a.toNat ∧ a.toNat ≤ 0x6F then .pump
      else .unassigned := by
  simp only [addrClass, BitVec.le_def, ← BitVec.toNat_inj]
  rfl

theorem addrClass_broadcast (h : a.toNat = 0x0F) : addrClass a = .broadcast := by
  rw [addrClass_eq, if_pos h]

theorem addrClass_mainController (h : 0x10 ≤ a.toNat ∧ a.toNat ≤ 0x1F) : addrClass a = .mainController := by
  rw [addrClass_eq, if_neg (by omega), if_pos h]

theorem addrClass_remoteController (h : 0x20 ≤ a.toNat ∧ a.toNat ≤ 0x2F) : addrClass a = .remoteController := by
  rw [addrClass_eq, if_neg (by omega), if_neg (by omega), if_pos h]

theorem addrClass_pump (h : 0x60 ≤ a.toNat ∧ a.toNat ≤ 0x6F) : addrClass a = .pump := by
  rw [addrClass_eq, if_neg (by omega), if_neg (by omega), if_neg (by omega), if_pos h]

theorem addrClass_unassigned (h : a.toNat ≤ 0x0E ∨ (0x30 ≤ a.toNat ∧ a.toNat ≤ 0x5F) ∨ 0x70 ≤ a.toNat) :
    addrClass a = .unassigned := by
  rw [addrClass_eq, if_neg (by omega), if_neg (by omega), if_neg (by omega), if_neg (by omega)]

/-- The broadcast class is one address. -/
theorem addrClass_eq_broadcast_iff : addrClass a = .broadcast ↔ a = 0x0F := by
  unfold addrClass
  split <;> rename_i other
  · exact iff_of_true rfl other
  · refine iff_of_false ?_ other
    split_ifs <;> decide

theorem addrClass_ownAddr (p : Params) : addrClass p.ownAddr = .remoteController := by
  apply addrClass_remoteController
  have := p.ownAddrLow.isLt
  rw [ownAddr_toNat]
  omega

theorem forUs_iff (p : Params) (fr : Frame) :
    forUs p fr = true ↔ fr.destination = p.ownAddr ∨ addrClass fr.destination = .broadcast := by
  rw [addrClass_eq_broadcast_iff, forUs, Bool.or_eq_true, beq_iff_eq, beq_iff_eq]

/-- Settles O15: the classes by the range each is the answer of, `for_us` by the one address of the broadcast class. -/
theorem addressClassesDecideForUs : Obligations.AddressClassesDecideForUs :=
  ⟨fun _ => ⟨addrClass_broadcast, addrClass_mainController, addrClass_remoteController, addrClass_pump,
    addrClass_unassigned⟩, addrClass_ownAddr, forUs_iff⟩

end Sys2Proof.Machine
end

section
/-! What the instructions leave of the arbiter's elements: the isolation of a transmission (20_memory.md R67), and the
operations that may be repeated (20_memory.md R57). -/

namespace Sys2Proof.Machine

variable {s t : State} {i : Instr}

/-- Settles O27: each of the seven writes constants to its fields, or nothing, so its second run writes what is there. -/
theorem clearsAndWritesAreIdempotent : Obligations.ClearsAndWritesAreIdempotent := by
  intro i imm s listed
  simp only [List.mem_cons, List.not_mem_nil, or_false] at listed
  obtain rfl | rfl | rfl | rfl | rfl | rfl | rfl := listed <;> exact ⟨_, rfl, rfl⟩

/-- UART_EMPTY keeps TXQ, or returns the line to LISTEN. -/
theorem uartDrained_txq (busy : (uartDrained s).arb ≠ .listen) : (uartDrained s).txq = s.txq := by
  obtain ⟨-, -, ends⟩ | ⟨-, -, guards⟩ | ⟨-, idles⟩ := uartDrained_cases s
  · rw [ends] at busy; exact absurd (finish_arb s) busy
  · rw [guards]
  · rw [idles]

/-- A TICK keeps TXQ, or returns the line to LISTEN. -/
theorem tickGuard_txq (busy : (tickGuard s).arb ≠ .listen) : (tickGuard s).txq = s.txq := by
  obtain ⟨arb, gcnt, counts⟩ | ⟨gcnt, ends⟩ := tickGuard_cases s
  · rw [counts]
  · rw [ends] at busy; exact absurd (finish_arb _) busy

/-- TXQ is written from LISTEN (a send), to LISTEN (the end of a transmission), or by RESET. -/
theorem exec_txq_of_busy (before : s.arb ≠ .listen) (noReset : i ≠ .reset) (h : exec i s = .next t)
    (after : t.arb ≠ .listen) : t.txq = s.txq := by
  obtain ⟨-, -, -, -, -, -, -, txq, -⟩ := registersHaveTheirWritersOnly i s t h
  by_contra changed
  obtain rfl | request | rfl | rfl | rfl := txq changed
  · obtain ⟨listening, -⟩ := sendPayload_cases h
    exact before listening
  · obtain ⟨_, _, _, _, -, -, listening, -⟩ := exec_request_cases request h
    exact before listening
  · obtain rfl := Host.Outcome.next.inj h
    exact changed (uartDrained_txq after)
  · obtain rfl := Host.Outcome.next.inj h
    exact changed (tickGuard_txq after)
  · exact noReset rfl

/-- A host command other than TX_SEND is none of the writers of the arbiter's elements (10_state.md R29 to R32). -/
theorem not_arbiter_writer_of_isHostOp (host : i.isHostOp = true) :
    i.isRequest = false ∧ i ≠ .uartTake ∧ i ≠ .uartEmpty ∧ i ≠ .tick ∧ i ≠ .reset := by
  cases i with
  | nop | ckClr | ckAdd | txDst | txSrc | txCmd | txPush | txClr | txSend | rxFlush | illegal =>
    exact ⟨rfl, nofun, nofun, nofun, nofun⟩
  | _ => cases host

theorem exec_hostOp_arbiter (host : i.isHostOp = true) (noSend : i ≠ .txSend) (h : exec i s = .next t) :
    t.txq = s.txq ∧ t.txi = s.txi ∧ t.arb = s.arb ∧ t.de = s.de ∧ t.gcnt = s.gcnt := by
  obtain ⟨noRequest, noTake, noEmpty, noTick, noReset⟩ := not_arbiter_writer_of_isHostOp host
  obtain ⟨-, -, -, -, -, -, -, txq, txi, arb, deUp, deDown, gcnt, -⟩ := registersHaveTheirWritersOnly i s t h
  simp only [noSend, noRequest, noTake, noEmpty, noTick, noReset, Bool.false_eq_true, or_self, imp_false, ne_eq,
    not_not] at txq txi arb deUp deDown gcnt
  have de : t.de = s.de := by
    by_contra changed
    cases before : s.de with
    | false => exact deUp ⟨by simpa [before] using changed, before⟩
    | true => exact deDown ⟨by simpa [before] using changed, before⟩
  exact ⟨txq, txi, arb, de, gcnt⟩

/-- Settles O49: TXQ by its writers' first and last states, the host commands by not being writers. -/
theorem transmissionIsIsolated : Obligations.TransmissionIsIsolated :=
  ⟨fun _ _ _ before noReset h after => exec_txq_of_busy before noReset h after,
    fun _ _ _ host noSend h => exec_hostOp_arbiter host noSend h⟩

end Sys2Proof.Machine
end

section
/-! The host command word (30_encoding.md R71 to R75): its fields, what each OP is decoded to, and the reserved OP values. -/

namespace Sys2Proof.Machine

variable {w : Half}

@[simp] theorem opField_hostWord (op imm : Byte) : opField (hostWord op imm) = op := hi8_be16 op imm

@[simp] theorem immField_hostWord (op imm : Byte) : immField (hostWord op imm) = imm := lo8_be16 op imm

theorem opField_toNat (w : Half) : (opField w).toNat = w.toNat / 256 := hi8_toNat w

theorem decodeHost_nop (imm : Byte) : decodeHost (hostWord 0x00 imm) = .nop := by simp [decodeHost]
theorem decodeHost_ckClr (imm : Byte) : decodeHost (hostWord 0x01 imm) = .ckClr := by simp [decodeHost]
theorem decodeHost_ckAdd (imm : Byte) : decodeHost (hostWord 0x02 imm) = .ckAdd imm := by simp [decodeHost]
theorem decodeHost_txDst (imm : Byte) : decodeHost (hostWord 0x10 imm) = .txDst imm := by simp [decodeHost]
theorem decodeHost_txSrc (imm : Byte) : decodeHost (hostWord 0x11 imm) = .txSrc imm := by simp [decodeHost]
theorem decodeHost_txCmd (imm : Byte) : decodeHost (hostWord 0x12 imm) = .txCmd imm := by simp [decodeHost]
theorem decodeHost_txPush (imm : Byte) : decodeHost (hostWord 0x13 imm) = .txPush imm := by simp [decodeHost]
theorem decodeHost_txClr (imm : Byte) : decodeHost (hostWord 0x14 imm) = .txClr := by simp [decodeHost]
theorem decodeHost_txSend (imm : Byte) : decodeHost (hostWord 0x15 imm) = .txSend := by simp [decodeHost]
theorem decodeHost_rxFlush (imm : Byte) : decodeHost (hostWord 0x20 imm) = .rxFlush := by simp [decodeHost]

@[simp] theorem decode_host (w : Half) : decode (.host w) = .ok (decodeHost w) := rfl

/-- The reserved OP values of R74 are those that no row of R73 has. -/
theorem reservedOp_iff (op : Byte) :
    reservedOp op = true ↔ op.toNat ∉ [0x00, 0x01, 0x02, 0x10, 0x11, 0x12, 0x13, 0x14, 0x15, 0x20] := by
  simp [reservedOp, BitVec.le_def]
  omega

theorem decodeHost_reserved (reserved : reservedOp (opField w) = true) : decodeHost w = .illegal w := by
  rw [reservedOp_iff] at reserved
  unfold decodeHost
  split
  case h_11 => rfl
  all_goals simp_all

/-- The dispatch on OP answers ILLEGAL for a reserved OP only; the operands of the other rows take every value. -/
theorem decodeHost_wf (w : Half) : (decodeHost w).wf = true := by
  by_cases reserved : reservedOp (opField w) = true
  · rw [decodeHost_reserved reserved]
    exact reserved
  · rw [reservedOp_iff, not_not] at reserved
    unfold decodeHost
    split
    case h_11 => simp_all
    all_goals rfl

theorem decodeHost_eq_illegal_iff : decodeHost w = .illegal w ↔ reservedOp (opField w) = true := by
  refine ⟨fun illegal => ?_, decodeHost_reserved⟩
  have wf := decodeHost_wf w
  rwa [illegal] at wf

/-- Settles O4: the words by the reserved OP values, those by arithmetic on the byte; ILLEGAL only emits its event. -/
theorem reservedOpcodesAreReported : Obligations.ReservedOpcodesAreReported := by
  refine ⟨fun w => ?_, fun op bound => ?_, by decide +kernel, fun w s => rfl⟩
  · rw [decode_host, Except.ok.injEq, decodeHost_eq_illegal_iff, reservedOp_iff, opField_toNat]
  · simp only [List.mem_cons, List.not_mem_nil, or_false]
    omega

/-- Settles O5: the dispatch reads the OP alone for the rows that take no operand. -/
theorem operandlessOpsIgnoreImm : Obligations.OperandlessOpsIgnoreImm := by
  intro imm
  simp only [decode_host, decodeHost_nop, decodeHost_ckClr, decodeHost_txClr, decodeHost_txSend, decodeHost_rxFlush,
    and_self]

end Sys2Proof.Machine
end

section
/-! The bytes of a frame with any checksum in its last two bytes: what each field of them is read as, and that `decode` accepts
exactly those whose checksum is the sum of their span (41_codec.md R123, R125, R126). -/

namespace Sys2Proof.Machine

variable {bs data : List Byte} {fr : Frame} (version dst src cmd : Byte) (sum : Half)

/-- The checksum span of a frame (40_checksum.md R101), written out. -/
def spanBytes (data : List Byte) : List Byte := [0xA5, version, dst, src, cmd, BitVec.ofNat 8 data.length] ++ data

/-- The layout of 30_encoding.md R76 with the checksum bytes of `sum`, whether it is the right one or not. -/
def frameCarrying (data : List Byte) : List Byte :=
  [0xFF, 0x00, 0xFF, 0xA5, version, dst, src, cmd, BitVec.ofNat 8 data.length] ++ data ++ [hi8 sum, lo8 sum]

theorem frameBytes_eq_frameCarrying (data : List Byte) :
    frameBytes version dst src cmd data =
      frameCarrying version dst src cmd (sum16 (spanBytes version dst src cmd data)) data :=
  frameBytes_eq version dst src cmd data

/-! ## Reading the fields -/

@[simp] theorem frameCarrying_take4 : (frameCarrying version dst src cmd sum data).take 4 = marker := rfl
@[simp] theorem frameCarrying_len :
    byteAt (frameCarrying version dst src cmd sum data) 8 = BitVec.ofNat 8 data.length := rfl

section
variable (fits : data.length ≤ 255)
include fits

theorem frameCarrying_length :
    (frameCarrying version dst src cmd sum data).length =
      frameLen (byteAt (frameCarrying version dst src cmd sum data) 8) := by
  rw [frameCarrying_len, frameLen, len_toNat _ fits]
  simp [frameCarrying]
  omega

/-- The bytes before the checksum are the first `9 + LEN`. -/
theorem frameCarrying_take :
    (frameCarrying version dst src cmd sum data).take
        (9 + (byteAt (frameCarrying version dst src cmd sum data) 8).toNat) =
      [0xFF, 0x00, 0xFF] ++ spanBytes version dst src cmd data := by
  rw [frameCarrying_len, len_toNat _ fits]
  exact List.take_left' (by simp; omega)

theorem frameCarrying_data :
    slice (frameCarrying version dst src cmd sum data) 9
      (9 + (byteAt (frameCarrying version dst src cmd sum data) 8).toNat) = data := by
  rw [slice, frameCarrying_take _ _ _ _ _ fits]
  rfl

theorem cks_frameCarrying :
    cks (frameCarrying version dst src cmd sum data) = sum16 (spanBytes version dst src cmd data) := by
  rw [cks, span, slice, frameCarrying_take _ _ _ _ _ fits]
  rfl

theorem rxChecksum_frameCarrying : rxChecksum (frameCarrying version dst src cmd sum data) = sum := by
  have before : ([0xFF, 0x00, 0xFF, 0xA5, version, dst, src, cmd, BitVec.ofNat 8 data.length] ++ data).length =
      9 + data.length := by simp; omega
  have hi : byteAt (frameCarrying version dst src cmd sum data) (9 + data.length) = hi8 sum := by
    rw [← before]; exact byteAt_append_right _ _ 0
  have lo : byteAt (frameCarrying version dst src cmd sum data) (10 + data.length) = lo8 sum := by
    rw [Nat.add_right_comm 9 1, ← before]; exact byteAt_append_right _ _ 1
  rw [rxChecksum, frameCarrying_len, len_toNat _ fits, hi, lo, be16_hi8_lo8]

/-- `decode` on a frame of the declared length: only the checksum decides. -/
theorem decodeFrame_frameCarrying :
    decodeFrame (frameCarrying version dst src cmd sum data) =
      if sum ≠ sum16 (spanBytes version dst src cmd data) then .error .checksumMismatch
      else .ok
        { version := version, destination := dst, source := src, commandId := cmd, data := data, checksum := sum } := by
  rw [decodeFrame_exact (frameCarrying_take4 ..) (frameCarrying_length _ _ _ _ _ fits),
    rxChecksum_frameCarrying _ _ _ _ _ fits, cks_frameCarrying _ _ _ _ _ fits, frameCarrying_data _ _ _ _ _ fits]
  rfl

theorem decodeFrame_frameBytes :
    decodeFrame (frameBytes version dst src cmd data) =
      .ok
        { version := version, destination := dst, source := src, commandId := cmd, data := data,
          checksum := sum16 (spanBytes version dst src cmd data) } := by
  rw [frameBytes_eq_frameCarrying, decodeFrame_frameCarrying _ _ _ _ _ fits, if_neg (not_not.mpr rfl)]

end

/-! ## What is accepted -/

/-- Bytes of the declared length that begin with MARKER are a frame, right checksum or not. -/
theorem exists_frameCarrying (yes : bs.take 4 = marker) (exact : bs.length = frameLen (byteAt bs 8)) :
    ∃ version dst src cmd sum, ∃ data : List Byte,
      data.length ≤ 255 ∧ bs = frameCarrying version dst src cmd sum data := by
  obtain ⟨m0, m1, m2, m3, version, dst, src, cmd, len, tail, rfl⟩ : ∃ m0 m1 m2 m3 version dst src cmd len tail,
      bs = m0 :: m1 :: m2 :: m3 :: version :: dst :: src :: cmd :: len :: tail := by
    have long : 9 ≤ bs.length := by rw [exact, frameLen]; omega
    match bs, long with
    | m0 :: m1 :: m2 :: m3 :: version :: dst :: src :: cmd :: len :: tail, _ => exact ⟨_, _, _, _, _, _, _, _, _, _, rfl⟩
  have tail_length : tail.length = len.toNat + 2 := by
    have : tail.length + 9 = 11 + len.toNat := exact
    omega
  obtain ⟨hi, lo, last⟩ : ∃ hi lo, tail.drop len.toNat = [hi, lo] :=
    List.length_eq_two.mp (by rw [List.length_drop, tail_length]; omega)
  have data_length : (tail.take len.toNat).length = len.toNat := by
    rw [List.length_take, tail_length]; omega
  refine ⟨version, dst, src, cmd, be16 hi lo, tail.take len.toNat, ?_, ?_⟩
  · rw [data_length]; exact Nat.le_of_lt_succ len.isLt
  · cases yes
    rw [frameCarrying, data_length, hi8_be16, lo8_be16, ← last, BitVec.ofNat_toNat, BitVec.setWidth_eq, List.append_assoc,
      List.take_append_drop]
    rfl

theorem decodeFrame_ok_exact (h : decodeFrame bs = .ok fr) :
    bs.take 4 = marker ∧ bs.length = frameLen (byteAt bs 8) := by
  unfold decodeFrame at h
  split_ifs at h with noMarker header truncated excess checksum
  exact ⟨not_not.mp (not_or.mp noMarker).2, by omega⟩

/-- `decode` accepts exactly the frames, whatever their VERSION. -/
theorem decodeFrame_eq_ok_iff :
    decodeFrame bs = .ok fr ↔
      fr.data.length ≤ 255 ∧ bs = frameBytes fr.version fr.destination fr.source fr.commandId fr.data ∧
        fr.checksum = cks bs := by
  constructor
  · intro h
    obtain ⟨yes, exact⟩ := decodeFrame_ok_exact h
    obtain ⟨version, dst, src, cmd, sum, data, fits, rfl⟩ := exists_frameCarrying yes exact
    rw [decodeFrame_frameCarrying _ _ _ _ _ fits] at h
    split_ifs at h with right
    rw [not_not] at right
    cases h
    exact ⟨fits, by rw [frameBytes_eq_frameCarrying, ← right], by rw [cks_frameCarrying _ _ _ _ _ fits, ← right]⟩
  · rintro ⟨fits, rfl, sum⟩
    rw [decodeFrame_frameBytes _ _ _ _ fits]
    rw [frameBytes_eq_frameCarrying, cks_frameCarrying _ _ _ _ _ fits] at sum
    rw [← sum]

end Sys2Proof.Machine
end

section
/-! The FRAME_CMD rows (30_encoding.md R81): which frames each row is read from, and the round trip of the whole decoder. -/

namespace Sys2Proof.Machine

variable {i : Instr} {dst src cmd : Byte} {data bs : List Byte} {fr : Frame} {r : StatusRecord}

/-! ## Requests -/

/-- A SET_MODE that is a request has a listed mode byte, which is its payload. -/
theorem request_setMode_cases {dst' src' m : Byte} (h : (Instr.setMode dst' src' m).request = some (dst, src, cmd, data)) :
    setModeData m = some [m] ∧ dst = dst' ∧ src = src' ∧ cmd = 0x05 ∧ data = [m] := by
  simp only [Instr.request, Option.map_eq_some_iff, Prod.mk.injEq] at h
  obtain ⟨_, listed, rfl, rfl, rfl, rfl⟩ := h
  obtain rfl := setModeData_eq_some listed
  exact ⟨listed, rfl, rfl, rfl, rfl⟩

/-- The requests are read from exactly the (CMD, DATA) pairs that their payload layouts give (41_codec.md R140 to R144). -/
theorem decodeRequest_eq_some_iff :
    decodeRequest dst src cmd data = some i ↔ i.request = some (dst, src, cmd, data) := by
  constructor
  · intro h
    unfold decodeRequest at h
    split_ifs at h with writeReg remoteLocal remote locally setMode runStop start stop statusQuery empty
    · split at h
      · cases h; simp [Instr.request, wrReg, writeReg]
      · cases h
    · cases h; simp [Instr.request, remoteLocal, remote]
    · cases h; simp [Instr.request, remoteLocal, locally]
    · split at h
      · next m =>
        split_ifs at h with listed
        cases h
        obtain ⟨data, listed⟩ := Option.isSome_iff_exists.mp listed
        simp [Instr.request, setMode, listed, setModeData_eq_some listed]
      · cases h
    · cases h; simp [Instr.request, runStop, start]
    · cases h; simp [Instr.request, runStop, stop]
    · cases h; simp [Instr.request, statusQuery, empty]
  · intro h
    cases i with
    | writeReg dst src reg val => cases h; simp [decodeRequest, wrReg]
    | remoteLocal dst src remote => cases h; cases remote <;> rfl
    | setMode dst src m =>
      obtain ⟨listed, rfl, rfl, rfl, rfl⟩ := request_setMode_cases h
      simp [decodeRequest, listed]
    | runStop dst src start => cases h; cases start <;> rfl
    | statusQuery dst src => cases h; rfl
    | _ => cases h

theorem encode_of_request (h : i.request = some (dst, src, cmd, data)) :
    encode i = .frame (frameBytes 0x00 dst src cmd data) := by
  cases i with
  | writeReg | remoteLocal | runStop | statusQuery => cases h; rfl
  | setMode =>
    obtain ⟨-, rfl, rfl, rfl, rfl⟩ := request_setMode_cases h
    rfl
  | _ => cases h

theorem wf_of_request (h : i.request = some (dst, src, cmd, data)) : i.wf = true := by
  cases i with
  | setMode =>
    obtain ⟨listed, -⟩ := request_setMode_cases h
    simp [Instr.wf, listed]
  | writeReg | remoteLocal | runStop | statusQuery => rfl
  | _ => cases h

/-- A well-formed request row has a payload: a SET_MODE has a listed mode byte. -/
theorem request_of_isRequest_of_wf (request : i.isRequest = true) (wf : i.wf = true) :
    ∃ dst src cmd data, i.request = some (dst, src, cmd, data) := by
  obtain fields | ⟨_, _, _, rfl, unlisted⟩ := request_of_isRequest request
  · exact fields
  · simp [Instr.wf, unlisted] at wf

/-! ## Status responses -/

@[simp] theorem statusData_length (r : StatusRecord) : (statusData r).length = 15 := rfl

/-- A status response is read from exactly the frames with CMD 0x07 and the 15 bytes that its fields are written as (R145). -/
theorem parseStatus_eq_some_iff : parseStatus fr = some r ↔ fr.commandId = 0x07 ∧ fr.data = statusData r := by
  obtain ⟨version, dst, src, cmd, data, sum⟩ := fr
  constructor
  · intro h
    unfold parseStatus at h
    split at h
    · cases h
    · next row =>
      obtain ⟨cmd_eq, long⟩ : cmd = 0x07 ∧ data.length = 15 := by simpa using row
      match data, long with
      | [d0, d1, d2, d3, d4, d5, d6, d7, d8, d9, d10, d11, d12, d13, d14], _ =>
        cases h
        exact ⟨cmd_eq, by simp [statusData, byteAt]⟩
  · rintro ⟨rfl, rfl⟩
    simp [parseStatus, statusData, byteAt]

/-- A request is no status response: its payload is shorter. -/
theorem parseStatus_of_request (h : i.request = some (fr.destination, fr.source, fr.commandId, fr.data)) :
    parseStatus fr = none :=
  if_pos (.inr (by have := request_length h; omega))

/-! ## Rows -/

theorem decodeRow_of_response (h : parseStatus fr = some r) :
    decodeRow fr = .ok (.statusResponse fr.version fr.destination fr.source r) := by
  simp [decodeRow, h]

theorem decodeRow_of_request (version : fr.version = 0x00)
    (h : i.request = some (fr.destination, fr.source, fr.commandId, fr.data)) : decodeRow fr = .ok i := by
  simp [decodeRow, parseStatus_of_request h, version, decodeRequest_eq_some_iff.mpr h]

/-- A verified frame that is a row is a status response of any VERSION, or a request of VERSION 0x00. -/
theorem decodeRow_cases (h : decodeRow fr = .ok i) :
    (∃ r, parseStatus fr = some r ∧ i = .statusResponse fr.version fr.destination fr.source r) ∨
      (fr.version = 0x00 ∧ i.request = some (fr.destination, fr.source, fr.commandId, fr.data)) := by
  cases response : parseStatus fr with
  | some r =>
    rw [decodeRow_of_response response] at h
    exact .inl ⟨r, rfl, (Except.ok.inj h).symm⟩
  | none =>
    by_cases version : fr.version = 0x00
    · cases request : decodeRequest fr.destination fr.source fr.commandId fr.data with
      | some j =>
        obtain rfl : j = i := by simpa [decodeRow, response, version, request] using h
        exact .inr ⟨version, decodeRequest_eq_some_iff.mp request⟩
      | none => simp [decodeRow, response, version, request] at h
    · simp only [decodeRow, response, if_neg version] at h
      cases h

theorem decode_frame_of_ok (verified : decodeFrame bs = .ok fr) : decode (.frame bs) = decodeRow fr := by
  simp [decode, verified]

/-- A frame that is a row verifies. -/
theorem decode_frame_cases (h : decode (.frame bs) = .ok i) : ∃ fr, decodeFrame bs = .ok fr ∧ decodeRow fr = .ok i := by
  cases verified : decodeFrame bs with
  | ok fr => exact ⟨fr, rfl, decode_frame_of_ok verified ▸ h⟩
  | error e => simp [decode, verified] at h

/-! ## Round trips -/

/-- A request is read back from the frame it is encoded as. -/
theorem decode_encode_of_request (h : i.request = some (dst, src, cmd, data)) : decode (encode i) = .ok i := by
  have fits : data.length ≤ 255 := (request_length h).trans (by decide)
  rw [encode_of_request h, decode_frame_of_ok (decodeFrame_frameBytes _ _ _ _ fits)]
  exact decodeRow_of_request rfl h

theorem decode_encode_statusResponse (version dst src : Byte) (r : StatusRecord) :
    decode (encode (.statusResponse version dst src r)) = .ok (.statusResponse version dst src r) := by
  have verified := decodeFrame_frameBytes version dst src 0x07 (data := statusData r) (by simp)
  rw [encode, decode_frame_of_ok verified]
  exact decodeRow_of_response (parseStatus_eq_some_iff.mpr ⟨rfl, rfl⟩)

/-- Settles O1: the requests and the status response by their frames, the host words by their OP and IMM, the ports by the
definition. -/
theorem decodeEncodeRoundTrip : Obligations.DecodeEncodeRoundTrip := by
  intro i wf
  by_cases request : i.isRequest = true
  · obtain ⟨_, _, _, _, fields⟩ := request_of_isRequest_of_wf request wf
    exact decode_encode_of_request fields
  cases i with
  | writeReg | remoteLocal | setMode | runStop | statusQuery => exact absurd rfl request
  | nop | ckClr | ckAdd | txDst | txSrc | txCmd | txPush | txClr | txSend | rxFlush =>
    simp only [encode, decode_host, decodeHost_nop, decodeHost_ckClr, decodeHost_ckAdd, decodeHost_txDst, decodeHost_txSrc,
      decodeHost_txCmd, decodeHost_txPush, decodeHost_txClr, decodeHost_txSend, decodeHost_rxFlush]
  | illegal w => rw [encode, decode_host, decodeHost_reserved wf]
  | statusResponse version dst src r => exact decode_encode_statusResponse version dst src r
  | reset | rxByte | uartTake | uartEmpty | tick => rfl

/-- Settles O2: a host word by the dispatch on OP, a frame by the payload its request has. -/
theorem decodeAnswersWellFormed : Obligations.DecodeAnswersWellFormed := by
  intro raw i h
  cases raw with
  | host w =>
    obtain rfl := Except.ok.inj h
    exact decodeHost_wf w
  | frame bs =>
    obtain ⟨fr, -, row⟩ := decode_frame_cases h
    obtain ⟨r, -, rfl⟩ | ⟨-, request⟩ := decodeRow_cases row
    · rfl
    · exact wf_of_request request
  | rst | tick | utxEmpty | utxTake | rx =>
    obtain rfl := Except.ok.inj h
    rfl

/-- Settles O3: `decode` accepts a frame's bytes only as laid out, and the row has every field that varies. -/
theorem frameRowsEncodeBack : Obligations.FrameRowsEncodeBack := by
  intro bs i h
  obtain ⟨fr, verified, row⟩ := decode_frame_cases h
  obtain ⟨-, bytes, -⟩ := decodeFrame_eq_ok_iff.mp verified
  rw [bytes]
  obtain ⟨r, response, rfl⟩ | ⟨version, request⟩ := decodeRow_cases row
  · obtain ⟨cmd, data⟩ := parseStatus_eq_some_iff.mp response
    rw [encode, cmd, data]
  · rw [encode_of_request request, version]

/-- Settles O16: each is the round trip of its instruction, but for TX_SEND, whose IMM byte 0xFF is ignored. -/
theorem writtenWordsDecode : Obligations.WrittenWordsDecode :=
  have roundTrip (i : Instr) (wf : i.wf = true) : decode (encode i) = .ok i := decodeEncodeRoundTrip i wf
  ⟨roundTrip (.ckAdd 0x60) rfl, roundTrip (.txPush 0xDC) rfl, congrArg Except.ok (decodeHost_txSend 0xFF),
    roundTrip (.illegal 0x2100) rfl, roundTrip (.rxByte 0xA5) rfl, roundTrip (.statusQuery 0x60 0x20) rfl,
    roundTrip (.writeReg 0x60 0x20 0x0321 0x05DC) rfl⟩

end Sys2Proof.Machine
end

section
/-! The requests and the host words they are assembled to (30_encoding.md R83, R84). -/

namespace Sys2Proof.Machine

variable {i : Instr} {dst src cmd : Byte} {data : List Byte} {s t : State}

/-! ## Requests in one step -/

/-- The mode bytes that R143 lists. -/
theorem setModeData_isSome_iff {m : Byte} :
    (setModeData m).isSome = true ↔
      m.toNat ∈ [0x00, 0x01, 0x02, 0x03, 0x04, 0x05, 0x09, 0x0A, 0x0B, 0x0C] := by
  simp only [setModeData, Option.isSome_map, pumpMode, BitVec.le_def, ← BitVec.toNat_inj, BitVec.reduceToNat,
    List.mem_cons, List.not_mem_nil, or_false]
  split_ifs <;> simp only [Option.isSome_some, Option.isSome_none, Bool.false_eq_true, true_iff, false_iff] <;> omega

/-- A listed mode byte is its own payload. -/
theorem setModeData_listed {m : Byte}
    (listed : m.toNat ∈ [0x00, 0x01, 0x02, 0x03, 0x04, 0x05, 0x09, 0x0A, 0x0B, 0x0C]) : setModeData m = some [m] := by
  obtain ⟨data, built⟩ := Option.isSome_iff_exists.mp (setModeData_isSome_iff.mpr listed)
  rw [built, setModeData_eq_some built]

/-- A request in LISTEN, whichever it is, loads the registers and puts its frame on the line. -/
theorem exec_request_starts (h : i.request = some (dst, src, cmd, data)) (listening : s.arb = .listen) :
    ∃ f, encodeFrame dst src cmd data = .ok f ∧ exec i s = .next (requestStarted dst src cmd data f s) := by
  have fits : data.length ≤ 255 := (request_length h).trans (by decide)
  refine ⟨frameBytes 0x00 dst src cmd data, if_neg (by omega), ?_⟩
  rw [exec_of_request h, sendRequest_starts dst src cmd data fits listening]
  rfl

/-- Settles O34: the requests have one meaning, each with the payload of its layout. -/
theorem requestsPutTheirFrameOnTheLine : Obligations.RequestsPutTheirFrameOnTheLine := by
  intro dst src s listening
  have starts {i : Instr} {cmd : Byte} {data : List Byte} (h : i.request = some (dst, src, cmd, data)) :=
    exec_request_starts h listening
  exact ⟨fun _ _ => starts rfl, starts rfl, starts rfl,
    fun m listed => starts (by rw [Instr.request, setModeData_listed listed]; rfl), starts rfl, starts rfl, starts rfl⟩

/-! ## Requests as host words -/

/-- The host words of a program, presented one a cycle. -/
def presented (words : List Half) : List Input := words.map fun w => .cycle (Cycle.hostOnly w)

theorem steps_succ_of_next (k : Nat) (h : step s = .next t) : steps (k + 1) s = steps k t := by
  simp [steps, Host.Core.run, core, h]

theorem steps_one (s : State) : steps 1 s = step s := by
  cases h : step s <;> simp [steps, Host.Core.run, core, h]

/-- A presented word is dispatched on its OP (44_control.md R230); the inputs after it are still to come. -/
theorem steps_presented_cons (k : Nat) {w : Half} (words : List Half) (rest : List Input) (decoded : decodeHost w = i)
    (runs : ∀ inputs, exec i { s with pending := inputs } = .next { t with pending := inputs }) :
    steps (k + 1) { s with pending := presented (w :: words) ++ rest } =
      steps k { t with pending := presented words ++ rest } := by
  apply steps_succ_of_next
  rw [step_of_decoded (takeInput_only (.host w) (presented words ++ rest)) rfl, decoded]
  exact runs _

/-- TX_PUSH does not read the inputs still to come. -/
theorem pushPayload_pending (b : Byte) (s : State) (inputs : List Input) :
    pushPayload b { s with pending := inputs } = { pushPayload b s with pending := inputs } := by
  by_cases room : s.txData.length < 255
  · rw [pushPayload_room b room, pushPayload_room (s := { s with pending := inputs }) b room]
  · rw [pushPayload_full b room, pushPayload_full (s := { s with pending := inputs }) b room]

theorem foldl_pushPayload_pending (data : List Byte) (s : State) (inputs : List Input) :
    data.foldl (fun t b => pushPayload b t) { s with pending := inputs } =
      { data.foldl (fun t b => pushPayload b t) s with pending := inputs } := by
  induction data generalizing s with
  | nil => rfl
  | cons b bs ih => rw [List.foldl_cons, pushPayload_pending, ih, List.foldl_cons]

/-- A TX_PUSH for each byte, one a step, is the pushes one after the other. -/
theorem steps_pushes (k : Nat) (data : List Byte) (words : List Half) (rest : List Input) (s : State) :
    steps (data.length + k) { s with pending := presented (data.map (hostWord 0x13) ++ words) ++ rest } =
      steps k { data.foldl (fun t b => pushPayload b t) s with pending := presented words ++ rest } := by
  induction data generalizing s with
  | nil => rw [List.length_nil, Nat.zero_add]; rfl
  | cons b bs ih =>
    have pushes (inputs : List Input) :
        exec (.txPush b) { s with pending := inputs } = .next { pushPayload b s with pending := inputs } :=
      congrArg Host.Outcome.next (pushPayload_pending b s inputs)
    rw [List.length_cons, Nat.add_right_comm, List.map_cons, List.cons_append,
      steps_presented_cons _ _ _ (decodeHost_txPush b) pushes, ih, List.foldl_cons]

/-- The expansion of R84, one word a step, is the request run whole. -/
theorem steps_sendWords (dst src cmd : Byte) (data : List Byte) (rest : List Input) (s : State) :
    steps (sendWords dst src cmd data).length { s with pending := presented (sendWords dst src cmd data) ++ rest } =
      sendRequest dst src cmd data { s with pending := rest } := by
  have words : sendWords dst src cmd data =
      hostWord 0x14 0x00 :: hostWord 0x10 dst :: hostWord 0x11 src :: hostWord 0x12 cmd ::
        (data.map (hostWord 0x13) ++ [hostWord 0x15 0x00]) := rfl
  have length : (sendWords dst src cmd data).length = data.length + 1 + 1 + 1 + 1 + 1 := by simp [words]
  rw [length, words,
    steps_presented_cons (t := clearPayload s) _ _ _ (decodeHost_txClr _) fun _ => rfl,
    steps_presented_cons (t := setTxhDst dst (clearPayload s)) _ _ _ (decodeHost_txDst dst) fun _ => rfl,
    steps_presented_cons (t := setTxhSrc src (setTxhDst dst (clearPayload s))) _ _ _ (decodeHost_txSrc src) fun _ => rfl,
    steps_presented_cons (t := setTxhCmd cmd (setTxhSrc src (setTxhDst dst (clearPayload s)))) _ _ _
      (decodeHost_txCmd cmd) fun _ => rfl,
    steps_pushes, steps_one, step_of_decoded (takeInput_only (.host (hostWord 0x15 0x00)) rest) rfl, decodeHost_txSend,
    ← foldl_pushPayload_pending]
  rfl

theorem expand_of_requestPseudo {ps : Pseudo} {words : List Half} (pseudo : requestPseudo i = some ps)
    (assembled : expand ps = .ok words) :
    ∃ dst src cmd data, i.request = some (dst, src, cmd, data) ∧ words = sendWords dst src cmd data := by
  cases i with
  | writeReg | statusQuery => cases pseudo; cases assembled; exact ⟨_, _, _, _, rfl, rfl⟩
  | remoteLocal _ _ flag | runStop _ _ flag =>
    cases flag <;> cases pseudo <;> cases assembled <;> exact ⟨_, _, _, _, rfl, rfl⟩
  | setMode dst src m =>
    cases pseudo
    cases listed : setModeData m with
    | none => simp [expand, listed] at assembled
    | some data =>
      simp only [expand, listed, Except.ok.injEq] at assembled
      exact ⟨dst, src, 0x05, data, by simp [Instr.request, listed], assembled.symm⟩
  | _ => cases pseudo

/-- Settles O36: both are `sendRequest` with the fields of the request. -/
theorem requestIsItsHostWords : Obligations.RequestIsItsHostWords := by
  intro i ps words s rest pseudo assembled
  obtain ⟨dst, src, cmd, data, fields, rfl⟩ := expand_of_requestPseudo pseudo assembled
  rw [exec_of_request fields]
  exact steps_sendWords dst src cmd data rest s

/-! ## Lines of text -/

/-- Settles O17: the assembler evaluated on each of the four lines. -/
theorem assemblerWritesTheExamples : Obligations.AssemblerWritesTheExamples :=
  ⟨by decide, by decide, by decide, by decide⟩

end Sys2Proof.Machine
end

section
/-! The sum of a byte sequence and the accumulator that computes it (40_checksum.md R100 to R107). -/

namespace Sys2Proof.Machine

variable {s t : State} {i : Instr}

/-! ## The sum of a sequence -/

theorem sum16_toNat (bs : List Byte) : (sum16 bs).toNat = (bs.map BitVec.toNat).sum % 65536 :=
  BitVec.toNat_ofNat _ 16

theorem sum16_perm {bs bs' : List Byte} (h : bs.Perm bs') : sum16 bs = sum16 bs' :=
  congrArg (BitVec.ofNat 16) (h.map BitVec.toNat).sum_eq

theorem sum16_replicate (n : Nat) (b : Byte) : sum16 (List.replicate n b) = BitVec.ofNat 16 (n * b.toNat) := by
  simp [sum16]

/-- Replacing a byte moves the sum from the old byte to the new one. -/
theorem sum16_set_add (bs : List Byte) (n : Nat) (b : Byte) (inside : n < bs.length) :
    sum16 (bs.set n b) + (byteAt bs n).setWidth 16 = sum16 bs + b.setWidth 16 := by
  induction bs generalizing n with
  | nil => cases inside
  | cons a bs ih =>
    cases n with
    | zero =>
      change sum16 (b :: bs) + a.setWidth 16 = _
      rw [sum16_cons, sum16_cons, add_right_comm, add_comm (b.setWidth 16), add_right_comm]
    | succ n =>
      have later := ih n (Nat.lt_of_succ_lt_succ inside)
      change sum16 (a :: bs.set n b) + (byteAt bs n).setWidth 16 = _
      rw [sum16_cons, sum16_cons, add_assoc, later, add_assoc]

/-- A byte is read back from its 16-bit zero extension. -/
theorem zext16_injective {a b : Byte} (h : a.setWidth 16 = b.setWidth 16) : a = b := by
  simpa using congrArg (BitVec.setWidth 8) h

theorem sum16_set_ne {bs : List Byte} {n : Nat} {b : Byte} (inside : n < bs.length) (new : b ≠ byteAt bs n) :
    sum16 (bs.set n b) ≠ sum16 bs := by
  intro same
  have moved := sum16_set_add bs n b inside
  rw [same] at moved
  exact new (zext16_injective (add_left_cancel moved)).symm

/-- Settles O11: a replaced byte moves the sum by its difference, and the exact sum does not depend on the order. -/
theorem sumDetectsOneByteNotOrder : Obligations.SumDetectsOneByteNotOrder :=
  ⟨fun _ _ _ => sum16_set_ne, fun _ _ => sum16_perm⟩

/-! ## The checksum of a frame -/

/-- The checksum covers 0xA5, the five header bytes and the data (R101, R102). -/
theorem cks_frameBytes (version dst src cmd : Byte) {data : List Byte} (fits : data.length ≤ 255) :
    cks (frameBytes version dst src cmd data) =
      sum16 [0xA5, version, dst, src, cmd, BitVec.ofNat 8 data.length] + sum16 data := by
  rw [cks, frameBytes_span _ _ _ _ _ fits, sum16_append]

/-- A payload of 255 equal bytes, whose sum with the header's may wrap (R100). -/
theorem cks_frameBytes_replicate (version dst src cmd b : Byte) :
    cks (frameBytes version dst src cmd (List.replicate 255 b)) =
      sum16 [0xA5, version, dst, src, cmd, 0xFF] + BitVec.ofNat 16 (255 * b.toNat) := by
  rw [cks_frameBytes _ _ _ _ (by rw [List.length_replicate]), List.length_replicate, sum16_replicate]
  rfl

/-- Settles O12: the sums of the headers, and 255 * 255 for the greatest payload. -/
theorem checksumWrapsAtItsGreatest : Obligations.ChecksumWrapsAtItsGreatest := by
  unfold Obligations.ChecksumWrapsAtItsGreatest
  rw [cks_frameBytes _ _ _ _ (by decide), cks_frameBytes_replicate, cks_frameBytes_replicate]
  decide

/-! ## The operations of the generator -/

theorem exec_ckClr (s : State) : exec .ckClr s = .next { s with ckAcc := 0x0000 } := rfl

theorem exec_ckAdd (imm : Byte) (s : State) :
    exec (.ckAdd imm) s = .next { s with ckAcc := s.ckAcc + imm.setWidth 16 } := rfl

/-- Settles O19: IMM is ignored by the decoder, and the write is CK_CLR's whole meaning. -/
theorem ckClrClearsTheAccumulator : Obligations.CkClrClearsTheAccumulator :=
  ⟨fun imm => congrArg Except.ok (decodeHost_ckClr imm), exec_ckClr⟩

theorem ckAcc_add_toNat (x : Half) (imm : Byte) : (x + imm.setWidth 16).toNat = (x.toNat + imm.toNat) % 65536 := by
  simp

/-- Settles O20: the 16-bit addition is the addition modulo 65536. -/
theorem ckAddAddsModulo : Obligations.CkAddAddsModulo :=
  fun imm s => ⟨congrArg Except.ok (decodeHost_ckAdd imm), _, exec_ckAdd imm s, ckAcc_add_toNat s.ckAcc imm⟩

/-! ## The accumulator over a sequence -/

theorem execAll_cons_of_next (is : List Instr) (h : exec i s = .next t) : execAll (i :: is) s = execAll is t := by
  simp [execAll, h]

/-- CK_ADD of each byte adds the sum of the bytes, whatever CK_ACC held before. -/
theorem execAll_ckAdds (bs : List Byte) (s : State) :
    execAll (bs.map Instr.ckAdd) s = .next { s with ckAcc := s.ckAcc + sum16 bs } := by
  induction bs generalizing s with
  | nil => simp [execAll]
  | cons b bs ih => rw [List.map_cons, execAll_cons_of_next _ (exec_ckAdd b s), ih, sum16_cons, add_assoc]

/-- Settles O21: CK_CLR and the additions leave the sum in the order given, which is the sum in any order. -/
theorem accumulatorSumsTheBytes : Obligations.AccumulatorSumsTheBytes := by
  intro bs bs' s order
  refine ⟨?_, sum16_toNat bs⟩
  rw [execAll_cons_of_next _ (exec_ckClr s), execAll_ckAdds, sum16_perm order]
  simp

end Sys2Proof.Machine
end

section
/-! The host operations of the frame encoder (41_codec.md R130 to R134): each register is written by its own word. -/

namespace Sys2Proof.Machine

variable {s : State}

theorem exec_txDst (imm : Byte) (s : State) : exec (.txDst imm) s = .next { s with txhDst := imm } := rfl

theorem exec_txSrc (imm : Byte) (s : State) : exec (.txSrc imm) s = .next { s with txhSrc := imm } := rfl

theorem exec_txCmd (imm : Byte) (s : State) : exec (.txCmd imm) s = .next { s with txhCmd := imm } := rfl

theorem exec_txPush (imm : Byte) (s : State) : exec (.txPush imm) s = .next (pushPayload imm s) := rfl

theorem exec_txClr (s : State) : exec .txClr s = .next { s with txData := [], txPtl := false } := rfl

/-- Settles O22: each word by the dispatch on its OP, each meaning by its write. -/
theorem txHeaderRegistersAreWritten : Obligations.TxHeaderRegistersAreWritten :=
  fun imm s => ⟨⟨congrArg Except.ok (decodeHost_txDst imm), exec_txDst imm s⟩,
    ⟨congrArg Except.ok (decodeHost_txSrc imm), exec_txSrc imm s⟩,
    ⟨congrArg Except.ok (decodeHost_txCmd imm), exec_txCmd imm s⟩⟩

/-- Settles O23: the push by the room the payload has. -/
theorem txPushAppendsOrFlags : Obligations.TxPushAppendsOrFlags := by
  intro imm s
  refine ⟨congrArg Except.ok (decodeHost_txPush imm), fun room => ?_, fun full => ?_⟩
  · rw [exec_txPush, pushPayload_room imm room]
  · rw [exec_txPush, pushPayload_full imm (Nat.not_lt.mpr full)]

/-- Settles O24: IMM is ignored by the decoder, and the two writes are TX_CLR's whole meaning. -/
theorem txClrEmptiesThePayload : Obligations.TxClrEmptiesThePayload :=
  ⟨fun imm => congrArg Except.ok (decodeHost_txClr imm), exec_txClr⟩

end Sys2Proof.Machine
end

section
/-! The payload layouts with a condition (41_codec.md section 5): the listed modes and what is refused (R143), and the status
response (R145, R146). -/

namespace Sys2Proof.Machine

variable {s : State} {i : Instr} {r : Refusal} {m : Byte}

/-! ## Modes -/

theorem setModeData_unlisted
    (unlisted : m.toNat ∉ [0x00, 0x01, 0x02, 0x03, 0x04, 0x05, 0x09, 0x0A, 0x0B, 0x0C]) : setModeData m = none := by
  rwa [← setModeData_isSome_iff, Option.not_isSome_iff_eq_none] at unlisted

/-- The preset modes are numbered from the byte 0x02. -/
theorem pumpMode_preset {n : Nat} (row : 1 ≤ n ∧ n ≤ 4) : pumpMode (BitVec.ofNat 8 (0x01 + n)) = some (.preset n) := by
  obtain rfl | rfl | rfl | rfl : n = 1 ∨ n = 2 ∨ n = 3 ∨ n = 4 := by omega
  all_goals rfl

/-- The external programs are numbered from the byte 0x09. -/
theorem pumpMode_externalProgram {n : Nat} (row : 1 ≤ n ∧ n ≤ 4) :
    pumpMode (BitVec.ofNat 8 (0x08 + n)) = some (.externalProgram n) := by
  obtain rfl | rfl | rfl | rfl : n = 1 ∨ n = 2 ∨ n = 3 ∨ n = 4 := by omega
  all_goals rfl

/-- Settles O14: a byte has a payload when it is listed, and a SET_MODE without one is refused. -/
theorem setModeTakesListedModesOnly : Obligations.SetModeTakesListedModesOnly := by
  refine ⟨fun m => ?_, rfl, rfl, fun n row => ⟨pumpMode_preset row, pumpMode_externalProgram row⟩,
    fun _ _ _ _ => exec_setMode_invalid⟩
  split_ifs with listed
  · exact setModeData_listed listed
  · exact setModeData_unlisted listed

/-! ## Refusals -/

theorem sendRequest_not_refused {dst src cmd : Byte} {data : List Byte} : sendRequest dst src cmd data s ≠ .refused r :=
  sendPayload_not_refused

theorem takeByte_not_refused : takeByte s ≠ .refused r := by
  unfold takeByte
  split_ifs <;> simp

/-- Only a row that has no payload is refused: the other rows complete or fault. -/
theorem exec_refused_iff :
    exec i s = .refused r ↔ ∃ dst src m, i = .setMode dst src m ∧ setModeData m = none ∧ r = .invalidMode m := by
  constructor
  · intro h
    by_cases request : i.isRequest = true
    · obtain ⟨dst, src, cmd, data, fields⟩ | ⟨dst, src, m, rfl, unlisted⟩ := request_of_isRequest request
      · rw [exec_of_request fields] at h
        exact absurd h sendRequest_not_refused
      · rw [exec_setMode_invalid unlisted] at h
        cases h
        exact ⟨dst, src, m, rfl, unlisted, rfl⟩
    · cases i with
      | writeReg | remoteLocal | setMode | runStop | statusQuery => exact absurd rfl request
      | txSend => exact absurd h sendPayload_not_refused
      | uartTake => exact absurd h takeByte_not_refused
      | _ => cases h
  · rintro ⟨dst, src, m, rfl, unlisted, rfl⟩
    exact exec_setMode_invalid unlisted

/-- Settles O46: a well-formed SET_MODE has a listed byte. -/
theorem onlyInvalidModesAreRefused : Obligations.OnlyInvalidModesAreRefused := by
  refine ⟨fun i s r => exec_refused_iff, fun i s r wf refused => ?_⟩
  obtain ⟨dst, src, m, rfl, unlisted, -⟩ := exec_refused_iff.mp refused
  simp [Instr.wf, unlisted] at wf

/-! ## Status responses -/

theorem parseStatus_eq_none {fr : Frame} (h : fr.commandId ≠ 0x07 ∨ fr.data.length ≠ 15) : parseStatus fr = none :=
  if_pos h

/-- Settles O13: the fifteen bytes are the layout of the record that has them as its fields. -/
theorem parseStatusReadsTheResponse : Obligations.ParseStatusReadsTheResponse := by
  refine ⟨fun fr => parseStatus_eq_none, fun fr d0 d1 d2 d3 d4 d5 d6 d7 d8 d9 d10 d11 d12 d13 d14 cmd data => ?_⟩
  refine ⟨⟨d0, d1, d2, be16 d3 d4, be16 d5 d6, d7, d8, d9, d10, d11, d12, d13, d14⟩,
    parseStatus_eq_some_iff.mpr ⟨cmd, ?_⟩, rfl, rfl, rfl, be16_toNat d3 d4, be16_toNat d5 d6, rfl, rfl, rfl, rfl, rfl, rfl,
    rfl, rfl, rfl⟩
  simp [data, statusData]

end Sys2Proof.Machine
end

section
/-! What `encode` and `decode` answer (41_codec.md R121 to R128), an equation for each answer. -/

namespace Sys2Proof.Machine

variable {bs f data : List Byte} {dst src cmd b : Byte} {n : Nat}

/-! ## Encoding -/

theorem encodeFrame_too_large (h : 255 < data.length) : encodeFrame dst src cmd data = .error .payloadTooLarge := if_pos h

theorem encodeFrame_eq_ok_iff :
    encodeFrame dst src cmd data = .ok f ↔ data.length ≤ 255 ∧ f = frameBytes 0x00 dst src cmd data := by
  unfold encodeFrame
  split_ifs with long
  · exact ⟨fun h => (nomatch h), fun ⟨fits, _⟩ => absurd long (Nat.not_lt.mpr fits)⟩
  · rw [Except.ok.injEq]
    exact ⟨fun bytes => ⟨Nat.not_lt.mp long, bytes.symm⟩, fun ⟨_, bytes⟩ => bytes.symm⟩

theorem cks_frameBytes_spanBytes (version dst src cmd : Byte) (fits : data.length ≤ 255) :
    cks (frameBytes version dst src cmd data) = sum16 (spanBytes version dst src cmd data) :=
  congrArg sum16 (frameBytes_span _ _ _ _ _ fits)

/-- The checksum bytes of a frame hold the checksum of its span. -/
theorem rxChecksum_frameBytes (version dst src cmd : Byte) (fits : data.length ≤ 255) :
    rxChecksum (frameBytes version dst src cmd data) = cks (frameBytes version dst src cmd data) := by
  rw [cks_frameBytes_spanBytes _ _ _ _ fits, frameBytes_eq_frameCarrying, rxChecksum_frameCarrying _ _ _ _ _ fits]

/-- Settles O6: the layout of a frame, with the checksum read back from its last two bytes. -/
theorem encodeLaysOutTheFrame : Obligations.EncodeLaysOutTheFrame := by
  intro dst src cmd data
  refine ⟨encodeFrame_too_large, fun fits => ⟨_, encodeFrame_eq_ok_iff.mpr ⟨fits, rfl⟩, ?_⟩⟩
  have sum := cks_frameBytes_spanBytes 0x00 dst src cmd fits
  have received := rxChecksum_frameBytes 0x00 dst src cmd fits
  rw [rxChecksum, frameBytes_len, len_toNat _ fits] at received
  refine ⟨?_, sum, frameBytes_length .., frameBytes_take4 .., frameBytes_version .., len_toNat _ fits, received⟩
  rw [sum, spanBytes]
  exact frameBytes_eq ..

/-! ## Decode errors -/

theorem decodeFrame_noMarker (no : bs.take 4 ≠ marker) : decodeFrame bs = .error .noMarker := if_pos (.inr no)

/-- Fewer than four bytes do not begin with MARKER. -/
theorem take4_ne_marker_of_short (short : bs.length < 4) : bs.take 4 ≠ marker := by
  intro yes
  have : min 4 bs.length = 4 := by simpa [marker] using congrArg List.length yes
  omega

theorem length_of_take4_eq_marker (yes : bs.take 4 = marker) : 4 ≤ bs.length :=
  Nat.not_lt.mp fun short => take4_ne_marker_of_short short yes

theorem decodeFrame_truncated (yes : bs.take 4 = marker) (short : bs.length < 9 ∨ bs.length < frameLen (byteAt bs 8)) :
    decodeFrame bs = .error .truncated := by
  have := length_of_take4_eq_marker yes
  unfold decodeFrame
  rw [if_neg (not_or.mpr ⟨by omega, not_not.mpr yes⟩)]
  split_ifs with header frame
  · rfl
  · rfl
  all_goals omega

theorem decodeFrame_excessBytes (yes : bs.take 4 = marker) (long : frameLen (byteAt bs 8) < bs.length) :
    decodeFrame bs = .error .excessBytes := by
  have : 11 ≤ frameLen (byteAt bs 8) := Nat.le_add_right _ _
  unfold decodeFrame
  rw [if_neg (not_or.mpr ⟨by omega, not_not.mpr yes⟩), if_neg (by omega), if_neg (by omega), if_pos long]

theorem decodeFrame_checksumMismatch (yes : bs.take 4 = marker) (exact : bs.length = frameLen (byteAt bs 8))
    (bad : rxChecksum bs ≠ cks bs) : decodeFrame bs = .error .checksumMismatch := by
  rw [decodeFrame_exact yes exact, if_pos bad]

/-- Settles O7: the checks of `decode` in their order; in bytes of the declared length the last two are at LEN's offsets. -/
theorem decodeReportsTheFirstError : Obligations.DecodeReportsTheFirstError := by
  intro bs
  refine ⟨?_, fun ⟨_, yes⟩ =>
    ⟨decodeFrame_truncated yes, fun ⟨_, long⟩ => decodeFrame_excessBytes yes long, fun exact => ?_⟩⟩
  · rintro (short | no)
    · exact decodeFrame_noMarker (take4_ne_marker_of_short short)
    · exact decodeFrame_noMarker no
  · have data_end : bs.length - 2 = 9 + (byteAt bs 8).toNat := by omega
    have last : bs.length - 1 = 10 + (byteAt bs 8).toNat := by omega
    rw [data_end, last]
    refine ⟨decodeFrame_checksumMismatch yes exact, fun right => ?_⟩
    rw [decodeFrame_exact yes exact]
    exact if_neg (not_not.mpr right)

/-- Settles O8: the bytes of the declared length are a frame with some checksum, and only the right one is accepted. -/
theorem decodeAcceptsExactlyTheFrames : Obligations.DecodeAcceptsExactlyTheFrames :=
  fun _ _ => decodeFrame_eq_ok_iff

/-! ## Encoding what was decoded -/

/-- VERSION is in the checksum span, so two frames that differ in it alone have different checksums. -/
theorem sum16_spanBytes_version_ne {version version' : Byte} (differ : version' ≠ version) :
    sum16 (spanBytes version' dst src cmd data) ≠ sum16 (spanBytes version dst src cmd data) :=
  sum16_set_ne (bs := spanBytes version dst src cmd data) (n := 1) (b := version') (by simp [spanBytes]) differ

/-- Settles O10: the decoded bytes are the frame of their fields, and `encode` writes that frame with VERSION 0x00. -/
theorem reencodingGivesTheBytesBack : Obligations.ReencodingGivesTheBytesBack := by
  intro bs fr accepted
  obtain ⟨fits, bytes, -⟩ := decodeFrame_eq_ok_iff.mp accepted
  refine ⟨fun version => ?_, fun version => ⟨_, encodeFrame_eq_ok_iff.mpr ⟨fits, rfl⟩, ?_, ?_⟩⟩
  · rw [encodeFrame_eq_ok_iff, ← version]
    exact ⟨fits, bytes⟩
  · rw [bytes, frameBytes_version, frameBytes_version]
    exact version.symm
  · rw [bytes, rxChecksum_frameBytes _ _ _ _ fits, rxChecksum_frameBytes _ _ _ _ fits, cks_frameBytes_spanBytes _ _ _ _ fits,
      cks_frameBytes_spanBytes _ _ _ _ fits]
    exact sum16_spanBytes_version_ne version.symm

/-! ## One corrupted byte -/

theorem byteAt_set_same (inside : n < bs.length) : byteAt (bs.set n b) n = b := by
  simp [byteAt, List.getD_eq_getElem?_getD, inside]

theorem byteAt_set_other {k : Nat} (other : n ≠ k) : byteAt (bs.set n b) k = byteAt bs k := by
  simp [byteAt, List.getD_eq_getElem?_getD, other]

theorem byteAt_slice {lo hi k : Nat} (inside : lo + k < hi) : byteAt (slice bs lo hi) k = byteAt bs (lo + k) := by
  simp [byteAt, slice, List.getD_eq_getElem?_getD, inside]

/-- A marker byte that is not the marker's own is no marker. -/
theorem take4_set_ne_marker (yes : bs.take 4 = marker) (offset : n < 4) (new : b ≠ byteAt bs n) :
    (bs.set n b).take 4 ≠ marker := by
  intro still
  have long := length_of_take4_eq_marker yes
  apply new
  calc b = byteAt (bs.set n b) n := (byteAt_set_same (by omega)).symm
    _ = byteAt ((bs.set n b).take 4) n := (byteAt_take _ offset).symm
    _ = byteAt (bs.take 4) n := by rw [still, yes]
    _ = byteAt bs n := byteAt_take _ offset

/-- A byte of the span other than LEN moves the checksum. -/
theorem cks_set_ne (inside : n < bs.length) (offset : 3 ≤ n) (notLen : n ≠ 8) (before : n < 9 + (byteAt bs 8).toNat)
    (new : b ≠ byteAt bs n) : cks (bs.set n b) ≠ cks bs := by
  obtain ⟨k, rfl⟩ := Nat.exists_eq_add_of_le offset
  have span_set : span (bs.set (3 + k) b) = (span bs).set k b := by
    rw [span, span, byteAt_set_other notLen, slice, slice, List.take_set, List.drop_set, if_neg (by omega),
      Nat.add_sub_cancel_left]
  have span_byte : byteAt (span bs) k = byteAt bs (3 + k) := byteAt_slice before
  have span_inside : k < (span bs).length := by
    rw [span, slice, List.length_drop, List.length_take]
    omega
  rw [cks, cks, span_set]
  exact sum16_set_ne span_inside (span_byte ▸ new)

theorem rxChecksum_set_of_before (notLen : n ≠ 8) (before : n < 9 + (byteAt bs 8).toNat) :
    rxChecksum (bs.set n b) = rxChecksum bs := by
  rw [rxChecksum, byteAt_set_other notLen, byteAt_set_other (by omega), byteAt_set_other (by omega), rxChecksum]

/-- Settles O9: before offset 4 the marker breaks, at LEN the declared length, and elsewhere the sum of the span. -/
theorem singleByteCorruptionIsDetected : Obligations.SingleByteCorruptionIsDetected := by
  intro dst src cmd data f i b encoded before new
  obtain ⟨fits, rfl⟩ := encodeFrame_eq_ok_iff.mp encoded
  have yes := frameBytes_take4 0x00 dst src cmd data
  have length := frameBytes_length 0x00 dst src cmd data
  have len : (byteAt (frameBytes 0x00 dst src cmd data) 8).toNat = data.length := len_toNat _ fits
  have right := rxChecksum_frameBytes 0x00 dst src cmd fits
  generalize frameBytes 0x00 dst src cmd data = f at *
  refine ⟨fun offset => decodeFrame_noMarker (take4_set_ne_marker yes offset new), fun ⟨offset, notLen⟩ => ?_, ?_, ?_⟩
  · apply decodeFrame_checksumMismatch
    · rwa [List.take_set_of_le offset]
    · rw [List.length_set, byteAt_set_other notLen, frameLen, len, length]
    · rw [rxChecksum_set_of_before notLen (by omega), right]
      exact (cks_set_ne (by omega) (by omega) notLen (by omega) new).symm
  · rintro ⟨rfl, grown⟩
    apply decodeFrame_truncated
    · rwa [List.take_set_of_le (by decide)]
    · rw [List.length_set, byteAt_set_same (by omega), frameLen]
      omega
  · rintro ⟨rfl, shrunk⟩
    apply decodeFrame_excessBytes
    · rwa [List.take_set_of_le (by decide)]
    · rw [List.length_set, byteAt_set_same (by omega), frameLen]
      omega

end Sys2Proof.Machine
end

section
/-! A frame that arrives whole on an idle, listening line (42_reassembler.md R161 to R166): its bytes wait in RB until the last
of them, which reports it. -/

namespace Sys2Proof.Machine

variable {p : Params} {s : State} {f rb : List Byte} {fr : Frame} {n : Nat}

/-! ## The buffer -/

theorem settle_take_proper (yes : f.take 4 = marker) (exact : f.length = frameLen (byteAt f 8)) (proper : n < f.length) :
    settle p (f.take n) = ([], f.take n) := by
  have length : (f.take n).length = n := List.length_take_of_le proper.le
  have begins (long : 4 ≤ n) : (f.take n).take 4 = marker := by rw [List.take_take, min_eq_left long, yes]
  have incomplete : ¬ frameLen (byteAt (f.take n) 8) ≤ (f.take n).length := by
    have : 11 ≤ frameLen (byteAt (f.take n) 8) := Nat.le_add_right _ _
    intro long
    rw [byteAt_take f (by omega)] at long
    omega
  cases settleTurn_cases p (f.take n) with
  | waitMarker _ stops => exact settle_none stops
  | waitHeader _ _ stops => exact settle_none stops
  | waitFrame _ _ _ stops => exact settle_none stops
  | garbage long no => exact absurd (begins (length ▸ long)) no
  | accept _ _ long => exact absurd long incomplete
  | resync _ _ long => exact absurd long incomplete

theorem settle_nil : settle p [] = ([], []) := rfl

/-- RB that holds one frame is reported and emptied (R166). -/
theorem settle_frame (accepted : decodeFrame f = .ok fr) : settle p f = ([frameEvent p fr], []) := by
  obtain ⟨yes, exact⟩ := decodeFrame_ok_exact accepted
  have header : 11 ≤ f.length := exact ▸ Nat.le_add_right _ _
  have whole : f.take (frameLen (byteAt f 8)) = f := by rw [← exact, List.take_length]
  cases settleTurn_cases p f with
  | waitMarker short => omega
  | garbage _ no => exact absurd yes no
  | waitHeader _ short => omega
  | waitFrame _ _ short => omega
  | accept fr' _ _ good turn =>
    rw [whole, accepted] at good
    cases good
    rw [settle_some turn, ← exact, List.drop_length, settle_nil, List.append_nil]
  | resync _ _ _ bad =>
    rw [whole, accepted] at bad
    cases bad

/-! ## Receptions -/

theorem appendByte_room (b : Byte) (room : rb.length < p.rxBufDepth) : appendByte p b rb = ([], rb ++ [b]) :=
  if_neg room.ne

/-- A byte received with room in RB: nothing is dropped, and the loop runs on RB with the byte at its end. -/
theorem receiveByte_room (b : Byte) (listening : s.arb = .listen) (room : s.rb.length < s.params.rxBufDepth) :
    receiveByte b s =
      { s with rb := (settle s.params (s.rb ++ [b])).2, chan := s.chan ++ (settle s.params (s.rb ++ [b])).1 } := by
  rw [receiveByte_listen b listening, appendByte_room b room, List.nil_append]

theorem receiveBytes_append (bs bs' : List Byte) (s : State) :
    receiveBytes (bs ++ bs') s = receiveBytes bs' (receiveBytes bs s) := List.foldl_append

theorem receiveBytes_busy (bs : List Byte) (busy : s.arb ≠ .listen) : receiveBytes bs s = s := by
  induction bs with
  | nil => exact receiveBytes_nil s
  | cons b bs ih => rw [receiveBytes_cons, receiveByte_busy b busy, ih]

/-- The first bytes of a frame, received one after the other on an idle line, settle as they would all at once. -/
theorem receiveBytes_take_succ (listening : s.arb = .listen) (proper : n < f.length) (room : n < s.params.rxBufDepth)
    (held : receiveBytes (f.take n) s = { s with rb := f.take n }) :
    receiveBytes (f.take (n + 1)) s =
      { s with
        rb := (settle s.params (f.take (n + 1))).2
        chan := s.chan ++ (settle s.params (f.take (n + 1))).1 } := by
  rw [List.take_succ_eq_append_getElem proper, receiveBytes_append, held]
  exact receiveByte_room _ listening (by rwa [List.length_take_of_le proper.le])

/-- A frame of which a byte is still to come is held in RB, and nothing is reported. -/
theorem receiveBytes_take_proper (listening : s.arb = .listen) (empty : s.rb = []) (yes : f.take 4 = marker)
    (exact : f.length = frameLen (byteAt f 8)) (fits : f.length ≤ s.params.rxBufDepth) (proper : n < f.length) :
    receiveBytes (f.take n) s = { s with rb := f.take n } := by
  induction n with
  | zero => rw [List.take_zero, receiveBytes_nil, ← empty]
  | succ n ih =>
    rw [receiveBytes_take_succ listening (by omega) (by omega) (ih (by omega)), settle_take_proper yes exact proper,
      List.append_nil]

/-- A frame received whole on an idle, listening line is reported by one EV_FRAME, and RB is empty again. -/
theorem receiveBytes_frame_reported (listening : s.arb = .listen) (empty : s.rb = []) (accepted : decodeFrame f = .ok fr)
    (fits : f.length ≤ s.params.rxBufDepth) :
    receiveBytes f s = { s with chan := s.chan ++ [frameEvent s.params fr] } := by
  obtain ⟨yes, exact⟩ := decodeFrame_ok_exact accepted
  obtain ⟨n, last⟩ : ∃ n, f.length = n + 1 := ⟨10 + (byteAt f 8).toNat, by rw [exact, frameLen]; omega⟩
  have held := receiveBytes_take_proper listening empty yes exact fits (n := n) (by omega)
  have received := receiveBytes_take_succ listening (by omega) (by omega) held
  rwa [← last, List.take_length, settle_frame accepted, ← empty] at received

/-! ## The status response -/

theorem exec_statusResponse (version dst src : Byte) (r : StatusRecord) (s : State) :
    exec (.statusResponse version dst src r) s = .next (receiveBytes (frameBytes version dst src 0x07 (statusData r)) s) := rfl

/-- Settles O37: the response is a frame that `decode` accepts, received byte by byte. -/
theorem statusResponseIsDelivered : Obligations.StatusResponseIsDelivered := by
  intro version dst src r s
  rw [exec_statusResponse]
  refine ⟨fun ⟨listening, empty, fits⟩ => ?_, fun busy => by rw [receiveBytes_busy _ busy], ?_⟩
  · have accepted := decodeFrame_frameBytes version dst src 0x07 (data := statusData r) (by simp)
    have reported := receiveBytes_frame_reported listening empty accepted (by simpa using fits)
    refine ⟨_, rfl, rfl, rfl, parseStatus_eq_some_iff.mpr ?_, congrArg Host.Outcome.next reported⟩
    exact ⟨rfl, rfl⟩
  · obtain ⟨rb, evs, received⟩ := receiveBytes_frame (frameBytes version dst src 0x07 (statusData r)) s
    exact ⟨rb, evs, congrArg Host.Outcome.next received⟩

end Sys2Proof.Machine
end

section
/-! The loop of 42_reassembler.md R163: an equation of `settle` for each of its branches, and that `settle` computes the
relation which the branches define. -/

namespace Sys2Proof

open Machine

variable {p : Params} {rb rb' rest candidate : List Byte} {evs : List Event} {fr : Frame} {b : Byte}

/-! ## One equation for each branch -/

theorem settle_of_waits (waits : RbWaits rb) : settle p rb = ([], rb) := by
  apply settle_none
  unfold settleTurn
  rcases waits with short | ⟨yes, short⟩ | ⟨yes, long, short⟩
  · rw [if_pos short]
  · rw [if_neg (Nat.not_lt.mpr (length_of_take4_eq_marker yes)), if_neg (not_not.mpr yes), if_pos short]
  · rw [if_neg (by omega), if_neg (not_not.mpr yes), if_neg (by omega), if_pos (c := _ < frameLen _) short]

/-- A garbage byte is dropped in silence (R164). -/
theorem settle_garbage (long : 4 ≤ (b :: rb).length) (no : (b :: rb).take 4 ≠ marker) : settle p (b :: rb) = settle p rb := by
  have turn : settleTurn p (b :: rb) = some ([], rb) := by
    unfold settleTurn
    rw [if_neg (by omega), if_pos no]
    rfl
  rw [settle_some turn, List.nil_append]

theorem slice_append_left {lo hi : Nat} (inside : hi ≤ candidate.length) :
    slice (candidate ++ rest) lo hi = slice candidate lo hi := by
  rw [slice, List.take_append_of_le_length inside, slice]

/-- The turn on an RB that begins with a whole candidate depends on the candidate alone: it decodes, or its sums differ. -/
theorem settleTurn_candidate (p : Params) (rest : List Byte) (yes : candidate.take 4 = marker)
    (exact : candidate.length = frameLen (byteAt candidate 8)) :
    (∃ fr, decodeFrame candidate = .ok fr ∧ settleTurn p (candidate ++ rest) = some ([frameEvent p fr], rest)) ∨
      (rxChecksum candidate ≠ cks candidate ∧
        settleTurn p (candidate ++ rest) =
          some ([.cksumErr (rxChecksum candidate) (cks candidate)], (candidate ++ rest).drop 1)) := by
  have size : candidate.length = 11 + (byteAt candidate 8).toNat := exact
  have len : frameLen (byteAt (candidate ++ rest) 8) = candidate.length := by
    rw [byteAt_append_left rest (by omega), exact]
  have begins : (candidate ++ rest).take 4 = marker := by rw [List.take_append_of_le_length (by omega), yes]
  have long : candidate.length ≤ (candidate ++ rest).length := by simp
  cases settleTurn_cases p (candidate ++ rest) with
  | waitMarker short => omega
  | garbage _ no => exact absurd begins no
  | waitHeader _ short => omega
  | waitFrame _ _ short => omega
  | accept fr _ _ good turn =>
    rw [len, List.take_left] at good
    rw [len, List.drop_left] at turn
    exact .inl ⟨fr, good, turn⟩
  | resync _ _ _ bad turn =>
    rw [len, List.take_left] at bad
    have differ : rxChecksum candidate ≠ cks candidate := fun same => by
      rw [decodeFrame_exact yes exact, if_neg (not_not.mpr same)] at bad
      cases bad
    have sums : be16 (byteAt (candidate ++ rest) (candidate.length - 2)) (byteAt (candidate ++ rest) (candidate.length - 1)) =
        rxChecksum candidate := by
      rw [byteAt_append_left rest (by omega), byteAt_append_left rest (by omega), size, rxChecksum]
      congr 2 <;> omega
    have spanned : sum16 (slice (candidate ++ rest) 3 (candidate.length - 2)) = cks candidate := by
      rw [slice_append_left (by omega), cks, span]
      congr 2
      omega
    rw [len, sums, spanned] at turn
    exact .inr ⟨differ, turn⟩

/-- A candidate that decodes is reported and removed whole (R166). -/
theorem settle_accept (good : decodeFrame candidate = .ok fr) (rest : List Byte) :
    settle p (candidate ++ rest) = (frameEvent p fr :: (settle p rest).1, (settle p rest).2) := by
  obtain ⟨yes, exact⟩ := decodeFrame_ok_exact good
  obtain ⟨fr', good', turn⟩ | ⟨bad, -⟩ := settleTurn_candidate p rest yes exact
  · rw [good] at good'
    cases good'
    exact settle_some turn
  · rw [decodeFrame_checksumMismatch yes exact bad] at good
    cases good

/-- A candidate that fails its checksum is reported and loses its first byte (R167). -/
theorem settle_resync (yes : candidate.take 4 = marker) (exact : candidate.length = frameLen (byteAt candidate 8))
    (bad : rxChecksum candidate ≠ cks candidate) (rest : List Byte) :
    settle p (candidate ++ rest) =
      (.cksumErr (rxChecksum candidate) (cks candidate) :: (settle p ((candidate ++ rest).drop 1)).1,
        (settle p ((candidate ++ rest).drop 1)).2) := by
  obtain ⟨fr, good, -⟩ | ⟨-, turn⟩ := settleTurn_candidate p rest yes exact
  · rw [decodeFrame_checksumMismatch yes exact bad] at good
    cases good
  · exact settle_some turn

/-! ## The relation and the function -/

theorem Settles.settle_eq (run : Settles p rb evs rb') : settle p rb = (evs, rb') := by
  induction run with
  | waitMarker rb short => exact settle_of_waits (.inl short)
  | garbage b rb evs rb' long no _ ih => rw [settle_garbage long no, ih]
  | waitHeader rb yes short => exact settle_of_waits (.inr (.inl ⟨yes, short⟩))
  | waitFrame rb yes long short => exact settle_of_waits (.inr (.inr ⟨yes, long, short⟩))
  | accept candidate rest fr evs rb' _ good _ ih => rw [settle_accept good, ih]
  | resync b candidate rest evs rb' yes exact bad _ ih =>
    rw [settle_resync yes exact bad, List.cons_append, List.drop_one, List.tail_cons, ih]

theorem settles_of_waits (waits : RbWaits rb) : Settles p rb [] rb := by
  rcases waits with short | ⟨yes, short⟩ | ⟨yes, long, short⟩
  · exact .waitMarker rb short
  · exact .waitHeader rb yes short
  · exact .waitFrame rb yes long short

/-- An RB that begins with MARKER and does not wait holds a whole candidate. -/
theorem exists_candidate (yes : rb.take 4 = marker) (goes : ¬ RbWaits rb) :
    ∃ candidate rest, candidate.take 4 = marker ∧ candidate.length = frameLen (byteAt candidate 8) ∧
      rb = candidate ++ rest := by
  have header : 11 ≤ rb.length := Nat.not_lt.mp fun short => goes (.inr (.inl ⟨yes, short⟩))
  have whole : frameLen (byteAt rb 8) ≤ rb.length := Nat.not_lt.mp fun short => goes (.inr (.inr ⟨yes, header, short⟩))
  have atLeast : 11 ≤ frameLen (byteAt rb 8) := Nat.le_add_right _ _
  refine ⟨rb.take (frameLen (byteAt rb 8)), rb.drop (frameLen (byteAt rb 8)), ?_, ?_, (List.take_append_drop ..).symm⟩
  · rw [List.take_take, min_eq_left (by omega), yes]
  · rw [byteAt_take rb (by omega), List.length_take_of_le whole]

/-- Every run of the function is a run of the loop. -/
theorem settles_settle (p : Params) (rb : List Byte) : Settles p rb (settle p rb).1 (settle p rb).2 := by
  induction n : rb.length using Nat.strong_induction_on generalizing rb with
  | _ n ih =>
    subst n
    by_cases waits : RbWaits rb
    · rw [settle_of_waits waits]
      exact settles_of_waits waits
    by_cases begins : rb.take 4 = marker
    · obtain ⟨candidate, rest, yes, exact, rfl⟩ := exists_candidate begins waits
      match candidate, yes, exact with
      | b :: candidate, yes, exact =>
        obtain ⟨fr, good, -⟩ | ⟨bad, -⟩ := settleTurn_candidate p rest yes exact
        · rw [settle_accept good]
          exact .accept _ rest fr _ _ exact good (ih _ (by simp) rest rfl)
        · rw [settle_resync yes exact bad]
          exact .resync b candidate rest _ _ yes exact bad (ih _ (by simp) (candidate ++ rest) rfl)
    · have long : 4 ≤ rb.length := Nat.not_lt.mp fun short => waits (.inl short)
      obtain ⟨b, tail, rfl⟩ := List.exists_cons_of_length_pos (l := rb) (by omega)
      rw [settle_garbage long begins]
      exact .garbage b tail _ _ long begins (ih _ (by simp) tail rfl)

/-- Settles O33: the function's equations by induction on the relation, and the relation's rules by induction on RB. -/
theorem settleComputesTheLoop : Obligations.SettleComputesTheLoop := by
  intro p rb evs rb'
  refine ⟨Settles.settle_eq, fun outcome => ?_⟩
  have run := settles_settle p rb
  rwa [outcome] at run

end Sys2Proof
end

section
/-! What one received byte does to RB and what it makes the core report (42_reassembler.md R161 to R175), read off the loop as a
relation. -/

namespace Sys2Proof

open Machine

variable {p : Params} {s t : State} {rb rb' : List Byte} {evs : List Event} {e : Event} {b : Byte}

/-! ## What the loop reports -/

/-- `e` is an EV_FRAME of bytes of RB that decode (42_reassembler.md R166), or an EV_CKSUM_ERR of two different sums (R167). -/
def Reportable (p : Params) (rb : List Byte) (e : Event) : Prop :=
  (∃ bs fr, bs <:+: rb ∧ decodeFrame bs = .ok fr ∧ e = frameEvent p fr) ∨
    ∃ received computed, received ≠ computed ∧ e = .cksumErr received computed

theorem Reportable.of_infix (h : Reportable p rb e) (part : rb <:+: rb') : Reportable p rb' e :=
  h.imp_left fun ⟨bs, fr, inside, good, event⟩ => ⟨bs, fr, inside.trans part, good, event⟩

theorem Reportable.ne_overrun (h : Reportable p rb e) (d : Byte) : e ≠ .overrun d := by
  rcases h with ⟨_, _, _, _, rfl⟩ | ⟨_, _, _, rfl⟩ <;> exact nofun

theorem Settles.reportable (run : Settles p rb evs rb') : ∀ e ∈ evs, Reportable p rb e := by
  induction run with
  | waitMarker | waitHeader | waitFrame => exact nofun
  | garbage b rb _ _ _ _ _ ih => exact fun e mem => (ih e mem).of_infix (List.suffix_cons b rb).isInfix
  | accept candidate rest fr _ _ _ good _ ih =>
    rintro e (_ | ⟨_, mem⟩)
    · exact .inl ⟨candidate, fr, ⟨[], rest, rfl⟩, good, rfl⟩
    · exact (ih e mem).of_infix (List.suffix_append candidate rest).isInfix
  | resync b candidate rest _ _ _ _ bad _ ih =>
    rintro e (_ | ⟨_, mem⟩)
    · exact .inr ⟨_, _, bad, rfl⟩
    · exact (ih e mem).of_infix (List.suffix_cons b (candidate ++ rest)).isInfix

theorem Settles.no_overrun (run : Settles p rb evs rb') (d : Byte) : Event.overrun d ∉ evs :=
  fun mem => (run.reportable _ mem).ne_overrun d rfl

/-- Each event takes a byte at least from RB (R170). -/
theorem Settles.length_le (run : Settles p rb evs rb') : evs.length + rb'.length ≤ rb.length := by
  induction run with
  | waitMarker | waitHeader | waitFrame => exact (Nat.zero_add _).le
  | garbage b rb _ _ _ _ _ ih => exact Nat.le_succ_of_le ih
  | accept candidate rest _ _ _ exact _ _ ih =>
    have : 11 ≤ candidate.length := exact ▸ Nat.le_add_right _ _
    simp only [List.length_cons, List.length_append]
    omega
  | resync =>
    simp only [List.length_cons, List.length_append] at *
    omega

/-! ## Append (R162) -/

theorem appendByte_full (b : Byte) (full : rb.length = p.rxBufDepth) :
    appendByte p b rb = ([.overrun (byteAt rb 0)], rb.drop 1 ++ [b]) := if_pos full

theorem appendByte_not_full (b : Byte) (room : rb.length ≠ p.rxBufDepth) : appendByte p b rb = ([], rb ++ [b]) := if_neg room

theorem appendByte_infix (p : Params) (b : Byte) (rb : List Byte) : (appendByte p b rb).2 <:+: rb ++ [b] := by
  by_cases full : rb.length = p.rxBufDepth
  · rw [appendByte_full b full]
    exact ⟨rb.take 1, [], by rw [List.append_nil, ← List.append_assoc, List.take_append_drop]⟩
  · rw [appendByte_not_full b full]

/-- At most the one dropped byte is reported. -/
theorem appendByte_overrun (p : Params) (b : Byte) (rb : List Byte) :
    (appendByte p b rb).1 = [] ∨ ((appendByte p b rb).1 = [.overrun (byteAt rb 0)] ∧ rb.length = p.rxBufDepth) := by
  by_cases full : rb.length = p.rxBufDepth
  · exact .inr ⟨congrArg Prod.fst (appendByte_full b full), full⟩
  · exact .inl (congrArg Prod.fst (appendByte_not_full b full))

/-! ## The step -/

theorem exec_rxByte (b : Byte) (s : State) : exec (.rxByte b) s = .next (receiveByte b s) := rfl

theorem exec_rxFlush (s : State) : exec .rxFlush s = .next { s with rb := [] } := rfl

/-- A byte emits nothing, or what its append reports and then what the loop reports of RB with the byte. -/
theorem rxByte_events (received : exec (.rxByte b) s = .next t) (emitted : t.chan = s.chan ++ evs) :
    evs = [] ∨ ∃ settled rb', Settles s.params (appendByte s.params b s.rb).2 settled rb' ∧
      evs = (appendByte s.params b s.rb).1 ++ settled := by
  rw [exec_rxByte] at received
  obtain rfl := Host.Outcome.next.inj received
  by_cases listening : s.arb = .listen
  · rw [receiveByte_listen b listening] at emitted
    exact .inr ⟨_, _, settles_settle .., (List.append_cancel_left emitted).symm⟩
  · rw [receiveByte_busy b listening] at emitted
    exact .inl (List.self_eq_append_right.mp emitted)

/-- Settles O26: IMM is ignored by the decoder, and the write is RX_FLUSH's whole meaning. -/
theorem rxFlushEmptiesTheBuffer : Obligations.RxFlushEmptiesTheBuffer :=
  ⟨fun imm => congrArg Except.ok (decodeHost_rxFlush imm), exec_rxFlush⟩

/-- Settles O32: the two answers of the append, with the loop that the function runs. -/
theorem rxByteAppendsAndSettles : Obligations.RxByteAppendsAndSettles := by
  intro b s
  refine ⟨rfl, fun busy => ?_, fun ⟨listening, room⟩ => ?_, fun ⟨listening, full⟩ => ?_⟩
  · rw [exec_rxByte, receiveByte_busy b busy]
  · refine ⟨_, _, settles_settle .., ?_⟩
    rw [exec_rxByte, receiveByte_listen b listening, appendByte_not_full b room, List.nil_append]
  · refine ⟨_, _, settles_settle .., ?_⟩
    rw [exec_rxByte, receiveByte_listen b listening, appendByte_full b full, List.singleton_append]

/-! ## What one byte can make the core report -/

/-- An RB that waits is shorter than the longest frame (R174). -/
theorem length_lt_of_waits (waits : RbWaits rb) : rb.length < 266 := by
  have := (byteAt rb 8).isLt
  rcases waits with short | ⟨_, short⟩ | ⟨_, _, short⟩ <;> omega

/-- Settles O53: an RB that waits is not full at this depth, and the loop reports no EV_OVERRUN. -/
theorem noOverrunAtFullDepth : Obligations.NoOverrunAtFullDepth := by
  intro b d s t evs inv deep received emitted
  have room : s.rb.length ≠ s.params.rxBufDepth := by
    have := length_lt_of_waits inv.buffer
    omega
  obtain rfl | ⟨settled, rb', run, rfl⟩ := rxByte_events received emitted
  · exact List.not_mem_nil
  · rw [appendByte_not_full b room, List.nil_append]
    exact run.no_overrun d

/-- Every event of a byte is the overrun of its append or a report of the loop on the RB that the append leaves. -/
theorem rxByte_event_cases (received : exec (.rxByte b) s = .next t) (emitted : t.chan = s.chan ++ evs) (mem : e ∈ evs) :
    (e = .overrun (byteAt s.rb 0) ∧ s.rb.length = s.params.rxBufDepth) ∨
      Reportable s.params (appendByte s.params b s.rb).2 e := by
  obtain rfl | ⟨settled, rb', run, rfl⟩ := rxByte_events received emitted
  · cases mem
  rcases List.mem_append.mp mem with dropped | reported
  · obtain nothing | ⟨one, full⟩ := appendByte_overrun s.params b s.rb
    · rw [nothing] at dropped
      cases dropped
    · rw [one, List.mem_singleton] at dropped
      exact .inl ⟨dropped, full⟩
  · exact .inr (run.reportable e reported)

theorem forUs_eq_decide (p : Params) (fr : Frame) :
    forUs p fr = decide (fr.destination = p.ownAddr ∨ fr.destination = 0x0F) := by
  rw [Bool.eq_iff_iff, decide_eq_true_iff, forUs_iff, addrClass_eq_broadcast_iff]

/-- Settles O57: the loop's reports, of which RB with the new byte holds every byte. -/
theorem reportedEventsAreSound : Obligations.ReportedEventsAreSound := by
  intro b s t evs received emitted e mem
  refine (rxByte_event_cases received emitted mem).imp_right fun reportable => ?_
  refine (reportable.of_infix (appendByte_infix ..)).imp_left fun ⟨bs, fr, inside, good, event⟩ => ?_
  exact ⟨bs, fr, inside, good, by rw [event, frameEvent, forUs_eq_decide]⟩

/-- Settles O56: a reported frame lies whole in RB after the append, which is within its depth. -/
theorem framesFitTheBuffer : Obligations.FramesFitTheBuffer := by
  intro b s t evs fe depth received emitted mem
  obtain ⟨overrun, -⟩ | ⟨bs, fr, inside, good, event⟩ | ⟨_, _, _, event⟩ := rxByte_event_cases received emitted mem
  · cases overrun
  · cases event
    obtain ⟨fits, rfl, -⟩ := decodeFrame_eq_ok_iff.mp good
    refine ⟨?_, len_toNat _ fits⟩
    calc 11 + fr.data.length = _ := (frameBytes_length ..).symm
      _ ≤ (appendByte s.params b s.rb).2.length := inside.length_le
      _ ≤ s.params.rxBufDepth := appendByte_length b depth
  · cases event

/-- Settles O58: one event at most of the append, before those of the loop, of which each takes a byte from RB. -/
theorem eventsOfAByteAreBounded : Obligations.EventsOfAByteAreBounded := by
  intro b s t evs depth received emitted
  obtain rfl | ⟨settled, rb', run, rfl⟩ := rxByte_events received emitted
  · exact ⟨Nat.zero_le _, nofun⟩
  have bounded : settled.length ≤ s.params.rxBufDepth :=
    calc settled.length ≤ (appendByte s.params b s.rb).2.length := (Nat.le_add_right _ _).trans run.length_le
      _ ≤ s.params.rxBufDepth := appendByte_length b depth
  obtain nothing | ⟨one, -⟩ := appendByte_overrun s.params b s.rb
  · rw [nothing, List.nil_append]
    exact ⟨Nat.le_succ_of_le bounded, fun d mem => run.no_overrun d (List.mem_of_mem_drop mem)⟩
  · rw [one]
    exact ⟨Nat.succ_le_succ bounded, run.no_overrun⟩

end Sys2Proof
end

section
/-! A byte stream, fed one byte a step: it emits what one settle of the whole stream emits (42_reassembler.md R172), and so is
resynchronised after a false marker (R173). -/

namespace Sys2Proof

open Machine

variable {p : Params} {s : State} {rb rb' rb'' bs : List Byte} {evs evs' : List Event} {dst src : Byte}

/-! ## Fragmentation -/

/-- Bytes that arrive after the loop has returned do not change what it did before (R172). -/
theorem Settles.append (run : Settles p rb evs rb') (later : Settles p (rb' ++ bs) evs' rb'') :
    Settles p (rb ++ bs) (evs ++ evs') rb'' := by
  induction run with
  | waitMarker | waitHeader | waitFrame => exact later
  | garbage b rb _ _ long no _ ih =>
    refine .garbage b (rb ++ bs) _ _ (long.trans (by simp)) ?_ (ih later)
    rwa [← List.cons_append, List.take_append_of_le_length long]
  | accept candidate rest fr _ _ exact good _ ih =>
    rw [List.append_assoc]
    exact .accept candidate (rest ++ bs) fr _ _ exact good (ih later)
  | resync b candidate rest _ _ yes exact bad _ ih =>
    rw [List.append_assoc]
    refine .resync b candidate (rest ++ bs) _ _ yes exact bad ?_
    rw [← List.append_assoc]
    exact ih later

theorem rbWaits_settle (p : Params) (rb : List Byte) : RbWaits (settle p rb).2 :=
  rbWaits_of_settleTurn_none (settle_drops rb).2

theorem receiveByte_not_full (b : Byte) (listening : s.arb = .listen) (room : s.rb.length ≠ s.params.rxBufDepth) :
    receiveByte b s =
      { s with rb := (settle s.params (s.rb ++ [b])).2, chan := s.chan ++ (settle s.params (s.rb ++ [b])).1 } := by
  rw [receiveByte_listen b listening, appendByte_not_full b room, List.nil_append]

theorem receiveByte_arb (b : Byte) (s : State) : (receiveByte b s).arb = s.arb := by
  obtain ⟨rb, evs, frame⟩ := receiveByte_frame b s
  rw [frame]

theorem receiveByte_params (b : Byte) (s : State) : (receiveByte b s).params = s.params := by
  obtain ⟨rb, evs, frame⟩ := receiveByte_frame b s
  rw [frame]

theorem rbWaits_receiveByte (b : Byte) (listening : s.arb = .listen) : RbWaits (receiveByte b s).rb := by
  rw [receiveByte_listen b listening]
  exact rbWaits_settle ..

theorem settle_append (p : Params) (rb bs : List Byte) :
    settle p (rb ++ bs) =
      ((settle p rb).1 ++ (settle p ((settle p rb).2 ++ bs)).1, (settle p ((settle p rb).2 ++ bs)).2) :=
  ((settles_settle p rb).append (settles_settle ..)).settle_eq

/-- The bytes, received one after the other, leave what one settle of RB with all of them leaves. -/
def SettledAtOnce (bs : List Byte) (s : State) : Prop :=
  receiveBytes bs s =
    { s with rb := (settle s.params (s.rb ++ bs)).2, chan := s.chan ++ (settle s.params (s.rb ++ bs)).1 }

theorem SettledAtOnce.nil (waits : RbWaits s.rb) : SettledAtOnce [] s := by
  rw [SettledAtOnce, List.append_nil, settle_of_waits waits, List.append_nil, receiveBytes_nil]

/-- A byte that is not the overrun of a full RB is settled with the bytes after it. -/
theorem SettledAtOnce.cons {b : Byte} (listening : s.arb = .listen) (room : s.rb.length ≠ s.params.rxBufDepth)
    (rest : SettledAtOnce bs (receiveByte b s)) : SettledAtOnce (b :: bs) s := by
  rw [SettledAtOnce, receiveByte_not_full b listening room] at rest
  rw [SettledAtOnce, receiveBytes_cons, receiveByte_not_full b listening room, rest,
    List.append_cons s.rb b bs, settle_append s.params (s.rb ++ [b]) bs, List.append_assoc]

theorem overrun_of_receiveByte_full {b : Byte} (listening : s.arb = .listen) (full : s.rb.length = s.params.rxBufDepth)
    (emitted : (receiveByte b s).chan = s.chan ++ evs) : Event.overrun (byteAt s.rb 0) ∈ evs := by
  rw [receiveByte_listen b listening, appendByte_full b full] at emitted
  rw [← List.append_cancel_left emitted]
  exact List.mem_cons_self

theorem settledAtOnce_of_no_overrun (listening : s.arb = .listen) (waits : RbWaits s.rb)
    (emitted : (receiveBytes bs s).chan = s.chan ++ evs) (clean : ∀ d, Event.overrun d ∉ evs) : SettledAtOnce bs s := by
  induction bs generalizing s evs with
  | nil => exact .nil waits
  | cons b bs ih =>
    obtain ⟨now, first⟩ : ∃ now, (receiveByte b s).chan = s.chan ++ now := by
      obtain ⟨_, now, frame⟩ := receiveByte_frame b s
      exact ⟨now, congrArg State.chan frame⟩
    obtain ⟨after, later⟩ : ∃ after, (receiveBytes bs (receiveByte b s)).chan = (receiveByte b s).chan ++ after := by
      obtain ⟨_, after, frame⟩ := receiveBytes_frame bs (receiveByte b s)
      exact ⟨after, congrArg State.chan frame⟩
    obtain rfl : now ++ after = evs := by
      rw [receiveBytes_cons, later, first, List.append_assoc] at emitted
      exact List.append_cancel_left emitted
    refine .cons listening (fun full => ?_) (ih ((receiveByte_arb b s).trans listening) (rbWaits_receiveByte b listening) later
      fun d mem => clean d (List.mem_append_right now mem))
    exact clean _ (List.mem_append_left after (overrun_of_receiveByte_full listening full first))

theorem execAll_rxBytes (bs : List Byte) (s : State) : execAll (bs.map Instr.rxByte) s = .next (receiveBytes bs s) := by
  induction bs generalizing s with
  | nil => rfl
  | cons b bs ih => rw [List.map_cons, execAll_cons_of_next _ (exec_rxByte b s), ih, receiveBytes_cons]

/-- Settles O54: no byte meets a full RB, so each is settled with the bytes after it. -/
theorem fragmentationDoesNotMatter : Obligations.FragmentationDoesNotMatter := by
  intro bs s t evs listening waits received emitted clean
  rw [execAll_rxBytes] at received
  obtain rfl := Host.Outcome.next.inj received
  have settled : SettledAtOnce bs s := settledAtOnce_of_no_overrun listening waits emitted clean
  rw [settled] at emitted ⊢
  exact ⟨(List.append_cancel_left emitted).symm, rfl⟩

/-- At full depth an RB that waits is never full (R174). -/
theorem settledAtOnce_of_deep (bs : List Byte) (listening : s.arb = .listen) (waits : RbWaits s.rb)
    (deep : 266 ≤ s.params.rxBufDepth) : SettledAtOnce bs s := by
  induction bs generalizing s with
  | nil => exact .nil waits
  | cons b bs ih =>
    exact .cons listening ((length_lt_of_waits waits).trans_le deep).ne
      (ih ((receiveByte_arb b s).trans listening) (rbWaits_receiveByte b listening) (receiveByte_params b s ▸ deep))

/-! ## The false marker (R173) -/

/-- The false candidate is a MARKER and the first seven bytes of the frame after it, read as a frame without data. -/
theorem marker_append_frameBytes (dst src cmd : Byte) (data : List Byte) :
    marker ++ frameBytes 0x00 dst src cmd data =
      frameCarrying 0xFF 0x00 0xFF 0xA5 (be16 dst src) [] ++ (frameBytes 0x00 dst src cmd data).drop 7 := by
  rw [frameCarrying, hi8_be16, lo8_be16]
  rfl

theorem sum16_falseCandidate : sum16 (spanBytes 0xFF 0x00 0xFF 0xA5 []) = 0x0348 := by decide

/-- The false candidate fails, its MARKER is dropped byte by byte, and the loop goes on with the frame. -/
theorem settle_falseMarker (cmd : Byte) (data : List Byte) (differ : (dst, src) ≠ (0x03, 0x48)) :
    settle p (marker ++ frameBytes 0x00 dst src cmd data) =
      (.cksumErr (be16 dst src) 0x0348 :: (settle p (frameBytes 0x00 dst src cmd data)).1,
        (settle p (frameBytes 0x00 dst src cmd data)).2) := by
  have fits : ([] : List Byte).length ≤ 255 := Nat.zero_le _
  have bad : rxChecksum (frameCarrying 0xFF 0x00 0xFF 0xA5 (be16 dst src) []) ≠
      cks (frameCarrying 0xFF 0x00 0xFF 0xA5 (be16 dst src) []) := by
    rw [rxChecksum_frameCarrying _ _ _ _ _ fits, cks_frameCarrying _ _ _ _ _ fits, sum16_falseCandidate]
    intro same
    obtain ⟨rfl, rfl⟩ := be16_inj (c := 0x03) (d := 0x48) same
    exact differ rfl
  have dropped :
      settle p ((marker ++ frameBytes 0x00 dst src cmd data).drop 1) = settle p (frameBytes 0x00 dst src cmd data) := by
    calc settle p (0x00 :: 0xFF :: 0xA5 :: frameBytes 0x00 dst src cmd data)
      _ = settle p (0xFF :: 0xA5 :: frameBytes 0x00 dst src cmd data) := settle_garbage (by simp; omega) (by simp [marker])
      _ = settle p (0xA5 :: frameBytes 0x00 dst src cmd data) := settle_garbage (by simp; omega) (by simp [marker])
      _ = settle p (frameBytes 0x00 dst src cmd data) := settle_garbage (by simp; omega) (by simp [marker])
  rw [marker_append_frameBytes, settle_resync (frameCarrying_take4 ..) (frameCarrying_length _ _ _ _ _ fits) bad,
    ← marker_append_frameBytes, dropped, rxChecksum_frameCarrying _ _ _ _ _ fits, cks_frameCarrying _ _ _ _ _ fits,
    sum16_falseCandidate]

/-- The one pair of addresses whose bytes are the checksum of the false candidate. -/
theorem decodeFrame_falseCandidate :
    decodeFrame (frameCarrying 0xFF 0x00 0xFF 0xA5 (be16 0x03 0x48) []) =
      .ok { version := 0xFF, destination := 0x00, source := 0xFF, commandId := 0xA5, data := [], checksum := 0x0348 } := by
  decide

/-- Settles O55: one settle of the whole stream, a frame, the false candidate and what follows it. -/
theorem desyncIsRecovered : Obligations.DesyncIsRecovered := by
  intro s f1 f2 fr1 fr2 listening empty deep _ good1 encoded2 good2
  obtain ⟨-, rfl⟩ := encodeFrame_eq_ok_iff.mp encoded2
  have settled : SettledAtOnce (f1 ++ marker ++ frameBytes 0x00 fr2.destination fr2.source fr2.commandId fr2.data) s :=
    settledAtOnce_of_deep _ listening (empty ▸ .inl (by decide)) deep
  rw [execAll_rxBytes, settled, empty, List.nil_append, List.append_assoc, settle_accept good1]
  constructor
  · intro differ
    rw [settle_falseMarker _ _ differ, settle_frame good2, ← empty]
  · intro same
    obtain ⟨dst, src⟩ := Prod.mk.inj same
    rw [marker_append_frameBytes, dst, src, settle_accept decodeFrame_falseCandidate]
    exact ⟨_, _, rfl⟩

end Sys2Proof
end

section
/-! The instructions of the arbiter (43_arbiter.md R191 to R197): an equation for each answer of TX_SEND, UART_TAKE, UART_EMPTY
and TICK, and of the requests, which end in a TX_SEND. -/

namespace Sys2Proof.Machine

variable {s : State} {f : List Byte}

/-! ## The instructions are the operations -/

theorem exec_txSend (s : State) : exec .txSend s = sendPayload s := rfl

theorem exec_uartTake (s : State) : exec .uartTake s = takeByte s := rfl

theorem exec_uartEmpty (s : State) : exec .uartEmpty s = .next (uartDrained s) := rfl

theorem exec_tick (s : State) : exec .tick s = .next (tickGuard s) := rfl

/-! ## Sending -/

theorem startFrame_unguarded (unguarded : s.params.preGuardTicks = 0) :
    startFrame f s = { s with txq := f, txi := 0, de := true, arb := .sending } := by
  simp [startFrame, unguarded]

theorem startFrame_guarded (guarded : 0 < s.params.preGuardTicks) :
    startFrame f s = { s with txq := f, txi := 0, de := true, arb := .preGuard, gcnt := s.params.preGuardTicks } := by
  simp [startFrame, guarded.ne']

/-- Settles O25: the answers of a send, and the start of a frame with and without a pre-transmit guard. -/
theorem txSendFaultsRefusesOrStarts : Obligations.TxSendFaultsRefusesOrStarts := by
  refine ⟨fun imm => congrArg Except.ok (decodeHost_txSend imm), fun s => ⟨sendPayload_busy, ?_, ?_⟩⟩
  · rintro ⟨listening, flagged⟩
    exact sendPayload_flagged listening flagged
  · rintro ⟨listening, flag, fits⟩
    refine ⟨_, encodeFrame_eq_ok_iff.mpr ⟨fits, rfl⟩, fun unguarded => ?_, fun guarded => ?_⟩
    · rw [exec_txSend, sendPayload_starts listening flag fits, startFrame_unguarded unguarded]
    · rw [exec_txSend, sendPayload_starts listening flag fits, startFrame_guarded guarded]

/-- Settles O35: every request is a `sendRequest` of a payload that fits (log entry 4), which faults outside LISTEN. -/
theorem requestsFaultWhileBusy : Obligations.RequestsFaultWhileBusy := by
  intro i s request busy
  obtain ⟨⟨dst, src, cmd, data⟩, fields⟩ := Option.isSome_iff_exists.mp request
  rw [exec_of_request fields]
  exact sendRequest_busy dst src cmd data ((request_length fields).trans (by decide)) busy

/-! ## UART_TAKE -/

/-- Settles O29: the three answers of a take. -/
theorem uartTakeAdvancesOrFaults : Obligations.UartTakeAdvancesOrFaults :=
  ⟨rfl, fun _ => ⟨takeByte_idle, fun ⟨sending, last⟩ => takeByte_last sending last,
    fun ⟨sending, more⟩ => takeByte_more sending more⟩⟩

/-! ## UART_EMPTY -/

theorem uartDrained_unguarded (draining : s.arb = .drain) (unguarded : s.params.postGuardTicks = 0) :
    uartDrained s = finish s := by
  rw [uartDrained, if_pos draining, if_pos unguarded]

theorem uartDrained_guarded (draining : s.arb = .drain) (guarded : 0 < s.params.postGuardTicks) :
    uartDrained s = { s with arb := .postGuard, gcnt := s.params.postGuardTicks } := by
  rw [uartDrained, if_pos draining, if_neg guarded.ne']

theorem uartDrained_other (other : s.arb ≠ .drain) : uartDrained s = s := if_neg other

/-- Settles O30: the three answers of UART_EMPTY. -/
theorem uartEmptyEndsTheDrain : Obligations.UartEmptyEndsTheDrain := by
  refine ⟨rfl, fun s => ⟨?_, ?_, fun other => congrArg Host.Outcome.next (uartDrained_other other)⟩⟩
  · rintro ⟨draining, unguarded⟩
    rw [exec_uartEmpty, uartDrained_unguarded draining unguarded]
    rfl
  · rintro ⟨draining, guarded⟩
    rw [exec_uartEmpty, uartDrained_guarded draining guarded]

/-! ## TICK -/

theorem tickGuard_preGuard_ends (pre : s.arb = .preGuard) (one : s.gcnt = 1) :
    tickGuard s = { s with gcnt := 0, arb := .sending } := by
  simp [tickGuard_preGuard pre, one]

theorem tickGuard_postGuard_ends (post : s.arb = .postGuard) (one : s.gcnt = 1) :
    tickGuard s = finish { s with gcnt := 0 } := by
  simp [tickGuard_postGuard post, one]

theorem tickGuard_counts (guard : s.arb = .preGuard ∨ s.arb = .postGuard) (more : 1 < s.gcnt) :
    tickGuard s = { s with gcnt := s.gcnt - 1 } := by
  have goes : s.gcnt - 1 ≠ 0 := by omega
  obtain pre | post := guard
  · rw [tickGuard_preGuard pre, if_neg goes]
  · rw [tickGuard_postGuard post, if_neg goes]

/-- Settles O31: the end of each guard, a count in either, and the states without a guard. -/
theorem tickCountsTheGuards : Obligations.TickCountsTheGuards := by
  refine ⟨rfl, fun s => ⟨?_, ?_, ?_, ?_⟩⟩
  · rintro ⟨pre, one⟩
    rw [exec_tick, tickGuard_preGuard_ends pre one]
  · rintro ⟨post, one⟩
    rw [exec_tick, tickGuard_postGuard_ends post one]
    rfl
  · rintro ⟨guard, more⟩
    rw [exec_tick, tickGuard_counts guard more]
  · intro unguarded
    have pre : s.arb ≠ .preGuard := by rintro pre; simp [pre] at unguarded
    have post : s.arb ≠ .postGuard := by rintro post; simp [post] at unguarded
    rw [exec_tick, tickGuard_other pre post]

end Sys2Proof.Machine
end

section
/-! The table of the arbiter (43_arbiter.md R190): the transitions of each instruction, and EV_TX_DONE at the returns to LISTEN
(R199). -/

namespace Sys2Proof

open Machine

variable {s t u : State} {i : Instr}

/-! ## The transitions -/

/-- A TICK ends the pre-transmit guard, ends the transmission, or writes GCNT at most. -/
theorem Machine.tickGuard_transitions (s : State) :
    (s.arb = .preGuard ∧ s.gcnt ≤ 1 ∧ tickGuard s = { s with gcnt := s.gcnt - 1, arb := .sending }) ∨
      (s.arb = .postGuard ∧ s.gcnt ≤ 1 ∧ tickGuard s = finish { s with gcnt := s.gcnt - 1 }) ∨
      ∃ gcnt, tickGuard s = { s with gcnt := gcnt } := by
  by_cases pre : s.arb = .preGuard
  · rw [tickGuard_preGuard pre]
    split
    · next ends => exact .inl ⟨pre, Nat.sub_eq_zero_iff_le.mp ends, rfl⟩
    · exact .inr (.inr ⟨_, rfl⟩)
  by_cases post : s.arb = .postGuard
  · rw [tickGuard_postGuard post]
    split
    · next ends => exact .inr (.inl ⟨post, Nat.sub_eq_zero_iff_le.mp ends, rfl⟩)
    · exact .inr (.inr ⟨_, rfl⟩)
  · exact .inr (.inr ⟨s.gcnt, tickGuard_other pre post⟩)

/-- A count of at least 1 in a guard (10_state.md R41 items 4 and 7). -/
theorem ArbInv.gcnt_pos (inv : ArbInv s) (guard : s.arb = .preGuard ∨ s.arb = .postGuard) : 1 ≤ s.gcnt := by
  obtain pre | post := guard
  · obtain ⟨-, positive, -⟩ := (arbInv_preGuard pre).mp inv
    exact positive
  · obtain ⟨-, positive, -⟩ := (arbInv_postGuard post).mp inv
    exact positive

/-- Settles O48: only the writers of ARB_STATE can change it, and each of them does so along its rows of the table. -/
theorem arbiterFollowsItsTable : Obligations.ArbiterFollowsItsTable := by
  intro i s t inv h changed
  obtain ⟨-, -, -, -, -, -, -, -, -, arb, -⟩ := registersHaveTheirWritersOnly i s t h
  obtain rfl | request | rfl | rfl | rfl | rfl := arb changed
  · obtain ⟨listening, ⟨-, rfl⟩ | ⟨flag, -, rfl⟩ | ⟨-, -, rfl⟩⟩ := sendPayload_cases h
    · exact absurd rfl changed
    · exact .inl ⟨listening, .inl ⟨rfl, flag⟩, rfl⟩
    · exact absurd rfl changed
  · obtain ⟨_, _, _, _, -, -, listening, rfl⟩ := exec_request_cases request h
    exact .inl ⟨listening, .inr request, rfl⟩
  · obtain ⟨sending, ⟨last, rfl⟩ | ⟨-, rfl⟩⟩ := takeByte_cases h
    · exact .inr (.inr (.inl ⟨sending, rfl, last, rfl⟩))
    · exact absurd rfl changed
  · obtain rfl := Host.Outcome.next.inj h
    obtain ⟨draining, unguarded, e⟩ | ⟨draining, guarded, e⟩ | ⟨-, e⟩ := uartDrained_cases s
    · exact .inr (.inr (.inr (.inl ⟨draining, rfl, by rw [e, if_pos unguarded, finish_arb]⟩)))
    · exact .inr (.inr (.inr (.inl ⟨draining, rfl, by rw [e, if_neg guarded]⟩)))
    · exact absurd (congrArg State.arb e) changed
  · obtain rfl := Host.Outcome.next.inj h
    obtain ⟨pre, low, e⟩ | ⟨post, low, e⟩ | ⟨_, e⟩ := tickGuard_transitions s
    · exact .inr (.inl ⟨pre, rfl, low.antisymm (inv.arbiter.gcnt_pos (.inl pre)), by rw [e]⟩)
    · exact .inr (.inr (.inr (.inr (.inl
        ⟨post, rfl, low.antisymm (inv.arbiter.gcnt_pos (.inr post)), by rw [e, finish_arb]⟩))))
    · exact absurd (congrArg State.arb e) changed
  · obtain rfl := Host.Outcome.next.inj h
    exact .inr (.inr (.inr (.inr (.inr ⟨rfl, rfl⟩))))

/-! ## EV_TX_DONE -/

/-- What is on the event channel in `t` after what was there in `s` holds no EV_TX_DONE. -/
def EmitsNoTxDone (s t : State) : Prop := ∃ evs, t.chan = s.chan ++ evs ∧ ∀ n, Event.txDone n ∉ evs

theorem EmitsNoTxDone.of_chan_eq (same : t.chan = s.chan) : EmitsNoTxDone s t :=
  ⟨[], by rw [same, List.append_nil], fun _ => List.not_mem_nil⟩

theorem EmitsNoTxDone.of_single {e : Event} (emitted : t.chan = s.chan ++ [e]) (other : ∀ n, Event.txDone n ≠ e) :
    EmitsNoTxDone s t :=
  ⟨[e], emitted, fun n mem => other n (List.mem_singleton.mp mem)⟩

theorem EmitsNoTxDone.trans (first : EmitsNoTxDone s t) (later : EmitsNoTxDone t u) : EmitsNoTxDone s u := by
  obtain ⟨evs, chan, none⟩ := first
  obtain ⟨evs', chan', none'⟩ := later
  refine ⟨evs ++ evs', by rw [chan', chan, List.append_assoc], fun n mem => ?_⟩
  exact (List.mem_append.mp mem).elim (none n) (none' n)

theorem Reportable.ne_txDone {p : Params} {rb : List Byte} {e : Event} (h : Reportable p rb e) (n : BitVec 9) :
    e ≠ .txDone n := by
  obtain ⟨_, _, -, -, rfl⟩ | ⟨_, _, -, rfl⟩ := h <;> exact nofun

/-- A received byte makes the core report an overrun and what the loop reports. -/
theorem emitsNoTxDone_receiveByte (b : Byte) (s : State) : EmitsNoTxDone s (receiveByte b s) := by
  obtain ⟨_, evs, frame⟩ := receiveByte_frame b s
  have emitted : (receiveByte b s).chan = s.chan ++ evs := congrArg State.chan frame
  refine ⟨evs, emitted, fun n mem => ?_⟩
  obtain ⟨overrun, -⟩ | reportable := rxByte_event_cases (exec_rxByte b s) emitted mem
  · cases overrun
  · exact reportable.ne_txDone n rfl

theorem emitsNoTxDone_receiveBytes (bs : List Byte) (s : State) : EmitsNoTxDone s (receiveBytes bs s) := by
  induction bs generalizing s with
  | nil => exact .of_chan_eq rfl
  | cons b bs ih => exact (emitsNoTxDone_receiveByte b s).trans (ih (receiveByte b s))

theorem emitsNoTxDone_pushPayload (b : Byte) (s : State) : EmitsNoTxDone s (pushPayload b s) := by
  by_cases room : s.txData.length < 255
  · rw [pushPayload_room b room]; exact .of_chan_eq rfl
  · rw [pushPayload_full b room]; exact .of_single rfl nofun

/-- An instruction ends a transmission by `finish()`, or emits no EV_TX_DONE and returns to LISTEN by RESET at most. -/
theorem exec_finish_cases (h : exec i s = .next t) :
    (s.arb ≠ .listen ∧ i ≠ .reset ∧ ∃ gcnt, t = finish { s with gcnt := gcnt }) ∨
      (EmitsNoTxDone s t ∧ (t.arb = .listen → s.arb = .listen ∨ i = .reset)) := by
  by_cases request : i.isRequest = true
  · obtain ⟨_, _, _, _, -, -, listening, rfl⟩ := exec_request_cases request h
    exact .inr ⟨.of_chan_eq rfl, fun _ => .inl listening⟩
  cases i with
  | writeReg | remoteLocal | setMode | runStop | statusQuery => exact absurd rfl request
  | nop | ckClr | ckAdd | txDst | txSrc | txCmd | txClr | rxFlush =>
    obtain rfl := Host.Outcome.next.inj h
    exact .inr ⟨.of_chan_eq rfl, .inl⟩
  | reset =>
    obtain rfl := Host.Outcome.next.inj h
    exact .inr ⟨.of_chan_eq rfl, fun _ => .inr rfl⟩
  | illegal =>
    obtain rfl := Host.Outcome.next.inj h
    exact .inr ⟨.of_single rfl nofun, .inl⟩
  | txPush b =>
    obtain ⟨-, -, arb, -, -⟩ := exec_hostOp_arbiter (i := .txPush b) rfl nofun h
    obtain rfl := Host.Outcome.next.inj h
    exact .inr ⟨emitsNoTxDone_pushPayload b s, fun listen => .inl (arb.symm.trans listen)⟩
  | txSend =>
    obtain ⟨listening, ⟨-, rfl⟩ | ⟨-, -, rfl⟩ | ⟨-, -, rfl⟩⟩ := sendPayload_cases h
    · exact .inr ⟨.of_single rfl nofun, fun _ => .inl listening⟩
    · exact .inr ⟨.of_chan_eq rfl, fun _ => .inl listening⟩
    · exact .inr ⟨.of_single rfl nofun, fun _ => .inl listening⟩
  | uartTake =>
    obtain ⟨-, ⟨-, rfl⟩ | ⟨-, rfl⟩⟩ := takeByte_cases h
    · exact .inr ⟨.of_chan_eq rfl, nofun⟩
    · exact .inr ⟨.of_chan_eq rfl, .inl⟩
  | uartEmpty =>
    obtain rfl := Host.Outcome.next.inj h
    obtain ⟨draining, -, e⟩ | ⟨-, -, e⟩ | ⟨-, e⟩ := uartDrained_cases s
    · exact .inl ⟨by simp [draining], nofun, s.gcnt, e⟩
    · rw [e]; exact .inr ⟨.of_chan_eq rfl, nofun⟩
    · rw [e]; exact .inr ⟨.of_chan_eq rfl, .inl⟩
  | tick =>
    obtain rfl := Host.Outcome.next.inj h
    obtain ⟨-, -, e⟩ | ⟨post, -, e⟩ | ⟨_, e⟩ := tickGuard_transitions s
    · rw [e]; exact .inr ⟨.of_chan_eq rfl, nofun⟩
    · exact .inl ⟨by simp [post], nofun, _, e⟩
    · rw [e]; exact .inr ⟨.of_chan_eq rfl, .inl⟩
  | rxByte b =>
    obtain rfl := Host.Outcome.next.inj h
    exact .inr ⟨emitsNoTxDone_receiveByte b s, fun listen => .inl ((receiveByte_arb b s).symm.trans listen)⟩
  | statusResponse version dst src r =>
    obtain rfl := Host.Outcome.next.inj h
    refine .inr ⟨emitsNoTxDone_receiveBytes _ s, fun listen => .inl ?_⟩
    obtain ⟨_, _, frame⟩ := receiveBytes_frame (frameBytes version dst src 0x07 (statusData r)) s
    exact (congrArg State.arb frame).symm.trans listen

/-- Settles O50: `finish()` emits the one event and enters LISTEN; every other answer does neither. -/
theorem txDoneMarksTheReturnToListen : Obligations.TxDoneMarksTheReturnToListen := by
  intro i s t evs n h emitted
  obtain ⟨busy, noReset, gcnt, rfl⟩ | ⟨⟨evs', emitted', none⟩, stays⟩ := exec_finish_cases h
  · obtain rfl : [Event.txDone (BitVec.ofNat 9 s.txq.length)] = evs := List.append_cancel_left emitted
    simp [busy, noReset]
  · obtain rfl : evs' = evs := List.append_cancel_left (emitted'.symm.trans emitted)
    refine iff_of_false (none n) ?_
    rintro ⟨busy, listen, noReset, -⟩
    exact (stays listen).elim busy noReset

end Sys2Proof
end

section
/-! A whole transmission (43_arbiter.md R200): the states it goes through, each with the line driven, and its end. -/

namespace Sys2Proof

open Machine

variable {s t u : State} {i : Instr} {is js : List Instr} {chan : List Event} {f : List Byte}

/-! ## Runs with the line driven -/

/-- The arbiter is outside LISTEN with DE = 1, and `chan` is all that was emitted. -/
def Driven (chan : List Event) (s : State) : Prop := s.arb ≠ .listen ∧ s.de = true ∧ s.chan = chan

/-- The instructions `is` run from the first state to the second, and the line is driven in every state from the first to the
second. -/
inductive DrivenRun (chan : List Event) : List Instr → State → State → Prop where
  | nil {s : State} (driven : Driven chan s) : DrivenRun chan [] s s
  | cons {s t u : State} {i : Instr} {is : List Instr} (driven : Driven chan s) (next : exec i s = .next t)
      (rest : DrivenRun chan is t u) : DrivenRun chan (i :: is) s u

theorem DrivenRun.single (before : Driven chan s) (next : exec i s = .next t) (after : Driven chan t) :
    DrivenRun chan [i] s t :=
  .cons before next (.nil after)

theorem DrivenRun.append (first : DrivenRun chan is s t) (later : DrivenRun chan js t u) :
    DrivenRun chan (is ++ js) s u := by
  induction first with
  | nil => exact later
  | cons driven next _ ih => exact .cons driven next (ih later)

theorem DrivenRun.execAll_append (run : DrivenRun chan is s t) (js : List Instr) : execAll (is ++ js) s = execAll js t := by
  induction run with
  | nil => rfl
  | cons _ next _ ih => rw [List.cons_append, execAll_cons_of_next _ next, ih]

/-- After every part of the run, none and all of it included, the line is driven. -/
theorem DrivenRun.execAll_take (run : DrivenRun chan is s t) (js : List Instr) {k : Nat} (within : k ≤ is.length) :
    ∃ u, execAll ((is ++ js).take k) s = .next u ∧ Driven chan u := by
  induction run generalizing k with
  | nil driven =>
    obtain rfl := Nat.le_zero.mp within
    exact ⟨_, rfl, driven⟩
  | cons driven next _ ih =>
    cases k with
    | zero => exact ⟨_, rfl, driven⟩
    | succ k =>
      obtain ⟨u, part, driven'⟩ := ih (Nat.le_of_succ_le_succ within)
      exact ⟨u, by rw [List.cons_append, List.take_succ_cons, execAll_cons_of_next _ next, part], driven'⟩

/-! ## The states of a transmission -/

/-- The state `s` with the frame `f` on the line. -/
def onLine (s : State) (f : List Byte) (arb : ArbState) (txi gcnt : Nat) : State :=
  { s with txq := f, txi := txi, arb := arb, de := true, gcnt := gcnt }

theorem driven_onLine {arb : ArbState} (busy : arb ≠ .listen) (txi gcnt : Nat) : Driven s.chan (onLine s f arb txi gcnt) :=
  ⟨busy, rfl, rfl⟩

/-- The frame `f` with `g` TICKs of the pre-transmit guard to come: with none, its first byte is offered. -/
def beforeSending (s : State) (f : List Byte) (g : Nat) : State :=
  onLine s f (if g = 0 then .sending else .preGuard) 0 g

/-- The frame `f` after `k` of its bytes were taken: with all of them taken, the line drains. -/
def afterTakes (s : State) (f : List Byte) (k : Nat) : State :=
  onLine s f (if k = f.length then .drain else .sending) k 0

theorem driven_beforeSending (s : State) (f : List Byte) (g : Nat) : Driven s.chan (beforeSending s f g) :=
  driven_onLine (by split_ifs <;> exact nofun) _ _

theorem driven_afterTakes (s : State) (f : List Byte) (k : Nat) : Driven s.chan (afterTakes s f k) :=
  driven_onLine (by split_ifs <;> exact nofun) _ _

theorem afterTakes_inside {k : Nat} (inside : k < f.length) : afterTakes s f k = onLine s f .sending k 0 := by
  rw [afterTakes, if_neg inside.ne]

theorem afterTakes_all (s : State) (f : List Byte) : afterTakes s f f.length = onLine s f .drain f.length 0 := by
  rw [afterTakes, if_pos rfl]

/-- Without a guard left, no byte of the frame is taken yet. -/
theorem beforeSending_zero (nonempty : 0 < f.length) : beforeSending s f 0 = afterTakes s f 0 := by
  rw [afterTakes_inside nonempty]; rfl

/-! ## One instruction -/

/-- The frame that a send from `s` puts on the line. -/
def frameOf (s : State) : List Byte := frameBytes 0x00 s.txhDst s.txhSrc s.txhCmd s.txData

theorem frameOf_length (s : State) : (frameOf s).length = 11 + s.txData.length := frameBytes_length ..

/-- In LISTEN GCNT is 0 (10_state.md R41 item 3), so a start leaves the pre-transmit guard in it, be there one or not. -/
theorem startFrame_eq_beforeSending (gcnt : s.gcnt = 0) (f : List Byte) :
    startFrame f s = beforeSending s f s.params.preGuardTicks := by
  by_cases unguarded : s.params.preGuardTicks = 0
  · simp [startFrame, beforeSending, onLine, unguarded, gcnt]
  · simp [startFrame, beforeSending, onLine, unguarded]

theorem exec_txSend_onLine (inv : Inv s) (listening : s.arb = .listen) (flag : s.txPtl = false) :
    exec .txSend s = .next (beforeSending s (frameOf s) s.params.preGuardTicks) := by
  obtain ⟨-, -, -, gcnt⟩ := (arbInv_listen listening).mp inv.arbiter
  rw [exec_txSend, sendPayload_starts listening flag inv.payload, startFrame_eq_beforeSending gcnt, frameOf]

theorem exec_tick_beforeSending (s : State) (f : List Byte) (g : Nat) :
    exec .tick (beforeSending s f (g + 1)) = .next (beforeSending s f g) := by
  cases g with
  | zero => rfl
  | succ g => rfl

theorem exec_uartTake_afterTakes {k : Nat} (inside : k < f.length) :
    exec .uartTake (afterTakes s f k) = .next (afterTakes s f (k + 1)) := by
  rw [afterTakes_inside inside, exec_uartTake]
  by_cases last : k + 1 = f.length
  · rw [takeByte_last (s := onLine s f .sending k 0) rfl last, afterTakes, if_pos last]; rfl
  · rw [takeByte_more (s := onLine s f .sending k 0) rfl last, afterTakes, if_neg last]; rfl

theorem exec_uartEmpty_unguarded (f : List Byte) (txi gcnt : Nat) (unguarded : s.params.postGuardTicks = 0) :
    exec .uartEmpty (onLine s f .drain txi gcnt) = .next (finish (onLine s f .drain txi gcnt)) :=
  congrArg Host.Outcome.next (uartDrained_unguarded rfl unguarded)

theorem exec_uartEmpty_guarded (f : List Byte) (txi gcnt : Nat) (guarded : 0 < s.params.postGuardTicks) :
    exec .uartEmpty (onLine s f .drain txi gcnt) = .next (onLine s f .postGuard txi s.params.postGuardTicks) :=
  congrArg Host.Outcome.next (uartDrained_guarded rfl guarded)

theorem exec_tick_postGuard (s : State) (f : List Byte) (txi g : Nat) :
    exec .tick (onLine s f .postGuard txi (g + 2)) = .next (onLine s f .postGuard txi (g + 1)) := rfl

/-- `finish()` takes the frame off the line, and nothing of it is left but its event. -/
theorem finish_onLine (inv : Inv s) (listening : s.arb = .listen) (f : List Byte) (arb : ArbState) (txi : Nat) :
    finish (onLine s f arb txi 0) = { s with chan := s.chan ++ [.txDone (BitVec.ofNat 9 f.length)] } := by
  obtain ⟨de, txq, txi, gcnt⟩ := (arbInv_listen listening).mp inv.arbiter
  cases s
  subst de txq txi gcnt listening
  rfl

/-! ## The phases -/

theorem drivenRun_preGuard (s : State) (f : List Byte) (g : Nat) :
    DrivenRun s.chan (List.replicate g .tick) (beforeSending s f g) (beforeSending s f 0) := by
  induction g with
  | zero => exact .nil (driven_beforeSending s f 0)
  | succ g ih => exact .cons (driven_beforeSending s f (g + 1)) (exec_tick_beforeSending s f g) ih

theorem drivenRun_takes (s : State) {k n : Nat} (inside : k + n ≤ f.length) :
    DrivenRun s.chan (List.replicate n .uartTake) (afterTakes s f k) (afterTakes s f (k + n)) := by
  induction n generalizing k with
  | zero => exact .nil (driven_afterTakes s f k)
  | succ n ih =>
    have rest := ih (k := k + 1) (by omega)
    rw [Nat.add_right_comm] at rest
    exact .cons (driven_afterTakes s f k) (exec_uartTake_afterTakes (by omega)) rest

/-- The pre-transmit guard and the first `k` bytes. -/
theorem drivenRun_sending (s : State) {k : Nat} (nonempty : 0 < f.length) (inside : k ≤ f.length) (g : Nat) :
    DrivenRun s.chan (List.replicate g .tick ++ List.replicate k .uartTake) (beforeSending s f g) (afterTakes s f k) := by
  have takes := drivenRun_takes s (f := f) (k := 0) (n := k) (by omega)
  rw [Nat.zero_add, ← beforeSending_zero nonempty] at takes
  exact (drivenRun_preGuard s f g).append takes

theorem drivenRun_postGuard (s : State) (f : List Byte) (txi g : Nat) :
    DrivenRun s.chan (List.replicate g .tick) (onLine s f .postGuard txi (g + 1)) (onLine s f .postGuard txi 1) := by
  induction g with
  | zero => exact .nil (driven_onLine (by decide) _ _)
  | succ g ih => exact .cons (driven_onLine (by decide) _ _) (exec_tick_postGuard s f txi g) ih

/-- From the drained line to the last event of the transmission, which is UART_EMPTY without a post-transmit guard and the last
TICK with one. -/
theorem exists_drivenRun_drain (inv : Inv s) (listening : s.arb = .listen) (f : List Byte) :
    ∃ is last t, Instr.uartEmpty :: List.replicate s.params.postGuardTicks .tick = is ++ [last] ∧
      DrivenRun s.chan is (afterTakes s f f.length) t ∧
      exec last t = .next { s with chan := s.chan ++ [.txDone (BitVec.ofNat 9 f.length)] } := by
  rw [afterTakes_all, ← finish_onLine inv listening f .drain f.length]
  cases post : s.params.postGuardTicks with
  | zero =>
    exact ⟨[], .uartEmpty, _, rfl, .nil (driven_onLine (by decide) _ _), exec_uartEmpty_unguarded f _ _ post⟩
  | succ g =>
    refine ⟨.uartEmpty :: List.replicate g .tick, .tick, onLine s f .postGuard f.length 1, ?_, ?_, rfl⟩
    · rw [List.replicate_succ', List.cons_append]
    · refine .cons (driven_onLine (by decide) _ _) ?_ (drivenRun_postGuard s f f.length g)
      rw [exec_uartEmpty_guarded f _ _ (by omega), post]

/-! ## The transmission -/

/-- Settles O51: after TX_SEND a run with the line driven, up to the event that ends it. -/
theorem transmissionRunsToItsEnd : Obligations.TransmissionRunsToItsEnd := by
  intro s inv listening flag
  have length := frameOf_length s
  have sends := exec_txSend_onLine inv listening flag
  have sending := drivenRun_sending s (by omega) (frameOf s).length.le_refl s.params.preGuardTicks
  obtain ⟨is, last, t, drain, draining, ends⟩ := exists_drivenRun_drain inv listening (frameOf s)
  have run := sending.append draining
  rw [length] at run ends
  have events : transmission s = .txSend :: ((List.replicate s.params.preGuardTicks .tick ++
      List.replicate (11 + s.txData.length) .uartTake ++ is) ++ [last]) := by
    simp [transmission, drain]
  rw [events]
  constructor
  · rw [execAll_cons_of_next _ sends, run.execAll_append, execAll_cons_of_next _ ends]; rfl
  · intro k some before
    obtain ⟨k, rfl⟩ := Nat.exists_eq_add_of_le' some
    rw [List.length_cons, List.length_append, List.length_singleton] at before
    obtain ⟨u, part, driven⟩ := run.execAll_take [last] (k := k) (by omega)
    exact ⟨u, by rw [List.take_succ_cons, execAll_cons_of_next _ sends, part], driven⟩

/-- Settles O52: the state after the guard and `k` takes, in which TXI is `k`. -/
theorem bytesAreOfferedInOrder : Obligations.BytesAreOfferedInOrder := by
  intro s f k inv listening flag encoded inside
  obtain ⟨-, rfl⟩ := encodeFrame_eq_ok_iff.mp encoded
  have run := drivenRun_sending s (by omega) inside.le s.params.preGuardTicks
  refine ⟨onLine s (frameOf s) .sending k 0, ?_, rfl, rfl, rfl⟩
  have part := run.execAll_append []
  rw [List.append_nil] at part
  rw [List.cons_append, execAll_cons_of_next _ (exec_txSend_onLine inv listening flag), frameOf, part,
    afterTakes_inside inside]
  rfl

end Sys2Proof
end

section
/-! NOP, and the events of one clock cycle (44_control.md R231, R233): what a cycle presents first, that no meaning reads the
inputs still to come, and that the steps of a cycle are therefore its instructions one after the other. -/

namespace Sys2Proof.Machine

variable {w : Half}

/-! ## NOP -/

theorem decodeHost_of_low (low : w.toNat ≤ 0x00FF) : decodeHost w = .nop := by
  have op : (opField w).toNat = 0 := by rw [opField_toNat]; omega
  simp [decodeHost, op]

theorem exec_nop (s : State) : exec .nop s = .next s := rfl

/-- Settles O18: the OP of a word below 0x0100 is 0x00, and the dispatch reads the OP alone. -/
theorem nopChangesNothing : Obligations.NopChangesNothing :=
  ⟨fun _ low => congrArg Except.ok (decodeHost_of_low low), exec_nop⟩

/-! ## Outcomes in sequence -/

/-- Go on from the next state; a fault or a refusal stays. -/
def andThen (o : Host.Outcome State Fault Refusal) (go : State → Host.Outcome State Fault Refusal) :
    Host.Outcome State Fault Refusal :=
  match o with
  | .next t => go t
  | .fault f => .fault f
  | .refused r => .refused r

theorem steps_succ (k : Nat) (s : State) : steps (k + 1) s = andThen (step s) (steps k) := by
  cases h : step s <;> simp [steps, Host.Core.run, core, andThen, h]

theorem execAll_cons (i : Instr) (is : List Instr) (s : State) : execAll (i :: is) s = andThen (exec i s) (execAll is) := by
  cases h : exec i s <;> simp [execAll, andThen, h]

/-- The outcome with other inputs still to come. -/
def withPending (inputs : List Input) (o : Host.Outcome State Fault Refusal) : Host.Outcome State Fault Refusal :=
  andThen o fun t => .next { t with pending := inputs }

/-! ## No meaning reads the inputs still to come -/

theorem sendPayload_pending (s : State) (inputs : List Input) :
    sendPayload { s with pending := inputs } = withPending inputs (sendPayload s) := by
  unfold sendPayload
  split_ifs
  · rfl
  · rfl
  · cases encodeFrame s.txhDst s.txhSrc s.txhCmd s.txData <;> rfl

theorem sendRequest_pending (dst src cmd : Byte) (data : List Byte) (s : State) (inputs : List Input) :
    sendRequest dst src cmd data { s with pending := inputs } = withPending inputs (sendRequest dst src cmd data s) := by
  unfold sendRequest
  rw [← sendPayload_pending, ← foldl_pushPayload_pending]
  rfl

theorem takeByte_pending (s : State) (inputs : List Input) :
    takeByte { s with pending := inputs } = withPending inputs (takeByte s) := by
  unfold takeByte
  split_ifs <;> rfl

theorem uartDrained_pending (s : State) (inputs : List Input) :
    uartDrained { s with pending := inputs } = { uartDrained s with pending := inputs } := by
  unfold uartDrained
  split_ifs <;> rfl

theorem tickGuard_pending (s : State) (inputs : List Input) :
    tickGuard { s with pending := inputs } = { tickGuard s with pending := inputs } := by
  cases mode : s.arb with
  | preGuard | postGuard => simp only [tickGuard, mode]; split_ifs <;> rfl
  | listen | sending | drain => simp only [tickGuard, mode]

theorem receiveByte_pending (b : Byte) (s : State) (inputs : List Input) :
    receiveByte b { s with pending := inputs } = { receiveByte b s with pending := inputs } := by
  unfold receiveByte
  split_ifs <;> rfl

theorem receiveBytes_pending (bs : List Byte) (s : State) (inputs : List Input) :
    receiveBytes bs { s with pending := inputs } = { receiveBytes bs s with pending := inputs } := by
  induction bs generalizing s with
  | nil => rfl
  | cons b bs ih => rw [receiveBytes_cons, receiveByte_pending, ih, receiveBytes_cons]

/-- No instruction reads the inputs still to come, and none writes them. -/
theorem exec_pending (i : Instr) (s : State) (inputs : List Input) :
    exec i { s with pending := inputs } = withPending inputs (exec i s) := by
  cases i with
  | nop | ckClr | ckAdd | txDst | txSrc | txCmd | txClr | rxFlush | illegal | reset => rfl
  | txPush b => exact congrArg Host.Outcome.next (pushPayload_pending b s inputs)
  | txSend => exact sendPayload_pending s inputs
  | writeReg | remoteLocal | runStop | statusQuery => exact sendRequest_pending _ _ _ _ s inputs
  | setMode dst src m =>
    simp only [exec, execSetMode]
    cases setModeData m with
    | none => rfl
    | some data => exact sendRequest_pending dst src 0x05 data s inputs
  | statusResponse => exact congrArg Host.Outcome.next (receiveBytes_pending _ s inputs)
  | rxByte b => exact congrArg Host.Outcome.next (receiveByte_pending b s inputs)
  | uartTake => exact takeByte_pending s inputs
  | uartEmpty => exact congrArg Host.Outcome.next (uartDrained_pending s inputs)
  | tick => exact congrArg Host.Outcome.next (tickGuard_pending s inputs)

/-! ## The events of one cycle (R233) -/

theorem Cycle.instrs_idle : Cycle.idle.instrs = [] := rfl

/-- A cycle presents nothing, or its first event is decoded to its first instruction and the cycle left has the others. -/
theorem Cycle.first_cases (c : Cycle) :
    c = Cycle.idle ∨ ∃ raw i c', c.first = some (raw, c') ∧ decode raw = .ok i ∧ c.instrs = i :: c'.instrs := by
  match c with
  | ⟨true, _, _, _, _, _⟩ | ⟨false, true, _, _, _, _⟩ | ⟨false, false, true, _, _, _⟩
  | ⟨false, false, false, true, _, _⟩ | ⟨false, false, false, false, some _, _⟩
  | ⟨false, false, false, false, none, some _⟩ => exact .inr ⟨_, _, _, rfl, rfl, rfl⟩
  | ⟨false, false, false, false, none, none⟩ => exact .inl rfl

/-- The inputs of which the front cycle, already begun, has the ports of `c` left: a cycle that is used up is gone. -/
def cycleLeft (c : Cycle) (rest : List Input) : List Input := if c = Cycle.idle then rest else .cycle c :: rest

theorem cycleLeft_idle (rest : List Input) : cycleLeft Cycle.idle rest = rest := if_pos rfl

theorem cycleLeft_of_instrs {c : Cycle} (presents : c.instrs ≠ []) (rest : List Input) :
    cycleLeft c rest = .cycle c :: rest :=
  if_neg fun idle => presents (by rw [idle, Cycle.instrs_idle])

/-- One step runs the first event left of the cycle, on the state without that event. -/
theorem step_cycleLeft {c c' : Cycle} {raw : Raw} {i : Instr} (s : State) (rest : List Input)
    (first : c.first = some (raw, c')) (decoded : decode raw = .ok i) (presents : c.instrs ≠ []) :
    step { s with pending := cycleLeft c rest } = withPending (cycleLeft c' rest) (exec i s) := by
  have taken : takeInput (cycleLeft c rest) = some (some raw, cycleLeft c' rest) := by
    rw [cycleLeft_of_instrs presents]
    exact takeInput_cycle rest first
  exact (step_of_decoded taken decoded).trans (exec_pending i s _)

/-- As many steps as the cycle has events left run their instructions, up to the first fault. -/
theorem steps_cycleLeft (is : List Instr) (c : Cycle) (left : c.instrs = is) (rest : List Input) (s : State) :
    steps is.length { s with pending := cycleLeft c rest } = execAll is { s with pending := rest } := by
  induction is generalizing c s with
  | nil =>
    obtain rfl | ⟨_, _, _, -, -, instrs⟩ := c.first_cases
    · rw [cycleLeft_idle]; rfl
    · rw [left] at instrs; cases instrs
  | cons i is ih =>
    obtain rfl | ⟨raw, _, c', first, decoded, instrs⟩ := c.first_cases
    · cases left
    · obtain ⟨rfl, others⟩ := List.cons.inj (left.symm.trans instrs)
      rw [List.length_cons, steps_succ, execAll_cons, exec_pending,
        step_cycleLeft s rest first decoded (by rw [left]; exact List.cons_ne_nil _ _)]
      cases exec i s with
      | next t => exact ih c' others.symm t
      | fault | refused => rfl

/-- Settles O40: a cycle that presents something is a begun cycle with all its ports left. -/
theorem sameCycleEventsAreOrdered : Obligations.SameCycleEventsAreOrdered := by
  intro c rest s presents
  rw [← cycleLeft_of_instrs presents rest]
  exact steps_cycleLeft c.instrs c rfl rest s

end Sys2Proof.Machine
end

section
/-! The event channel and the model faults (60_exceptions.md R240, R241, R250 to R254): what every instruction puts on the
channel, the codes of the events, and which instructions fault. -/

namespace Sys2Proof.Machine

variable {s t : State} {i : Instr} {f : Fault}

/-! ## What an instruction puts on the channel (R240, R254) -/

/-- From `s` to `t` one event at most is put on the channel, and no parameter changes. -/
def EmitsAtMostOne (s t : State) : Prop := t.params = s.params ∧ ∃ e : Option Event, t.chan = s.chan ++ e.toList

theorem EmitsAtMostOne.of_chan_eq (params : t.params = s.params) (same : t.chan = s.chan) : EmitsAtMostOne s t :=
  ⟨params, none, by rw [same, Option.toList_none, List.append_nil]⟩

theorem EmitsAtMostOne.of_single {e : Event} (params : t.params = s.params) (emitted : t.chan = s.chan ++ [e]) :
    EmitsAtMostOne s t :=
  ⟨params, some e, emitted⟩

theorem EmitsAtMostOne.length_le {evs : List Event} (h : EmitsAtMostOne s t) (emitted : t.chan = s.chan ++ evs) :
    evs.length ≤ 1 := by
  obtain ⟨-, e, chan⟩ := h
  obtain rfl : e.toList = evs := List.append_cancel_left (chan.symm.trans emitted)
  exact e.length_toList_le

theorem emitsAtMostOne_pushPayload (b : Byte) (s : State) : EmitsAtMostOne s (pushPayload b s) := by
  by_cases room : s.txData.length < 255
  · rw [pushPayload_room b room]; exact .of_chan_eq rfl rfl
  · rw [pushPayload_full b room]; exact .of_single rfl rfl

theorem emitsAtMostOne_sendPayload (h : sendPayload s = .next t) : EmitsAtMostOne s t := by
  obtain ⟨-, ⟨-, rfl⟩ | ⟨-, -, rfl⟩ | ⟨-, -, rfl⟩⟩ := sendPayload_cases h
  · exact .of_single rfl rfl
  · exact .of_chan_eq rfl rfl
  · exact .of_single rfl rfl

theorem emitsAtMostOne_takeByte (h : takeByte s = .next t) : EmitsAtMostOne s t := by
  obtain ⟨-, ⟨-, rfl⟩ | ⟨-, rfl⟩⟩ := takeByte_cases h
  · exact .of_chan_eq rfl rfl
  · exact .of_chan_eq rfl rfl

theorem emitsAtMostOne_uartDrained (s : State) : EmitsAtMostOne s (uartDrained s) := by
  obtain ⟨-, -, ends⟩ | ⟨-, -, guards⟩ | ⟨-, idles⟩ := uartDrained_cases s
  · rw [ends]; exact .of_single (finish_params s) (finish_chan s)
  · rw [guards]; exact .of_chan_eq rfl rfl
  · rw [idles]; exact .of_chan_eq rfl rfl

theorem emitsAtMostOne_tickGuard (s : State) : EmitsAtMostOne s (tickGuard s) := by
  obtain ⟨_, _, counts⟩ | ⟨_, ends⟩ := tickGuard_cases s
  · rw [counts]; exact .of_chan_eq rfl rfl
  · rw [ends]; exact .of_single (finish_params _) (finish_chan _)

/-- RX_BYTE and STATUS_RESPONSE: the instructions that run the reassembler's loop. -/
def IsReception (i : Instr) : Prop := (∃ b, i = .rxByte b) ∨ ∃ v dst src r, i = .statusResponse v dst src r

/-- An instruction puts one event at most on the channel, or it is a reception, which writes RB and the channel only. -/
theorem exec_emits (h : exec i s = .next t) :
    EmitsAtMostOne s t ∨ (IsReception i ∧ ∃ rb evs, t = { s with rb := rb, chan := s.chan ++ evs }) := by
  by_cases request : i.isRequest = true
  · obtain ⟨_, _, _, _, -, -, -, rfl⟩ := exec_request_cases request h
    exact .inl (.of_chan_eq rfl rfl)
  cases i with
  | writeReg | remoteLocal | setMode | runStop | statusQuery => exact absurd rfl request
  | nop | ckClr | ckAdd | txDst | txSrc | txCmd | txClr | rxFlush | reset =>
    obtain rfl := Host.Outcome.next.inj h
    exact .inl (.of_chan_eq rfl rfl)
  | illegal =>
    obtain rfl := Host.Outcome.next.inj h
    exact .inl (.of_single rfl rfl)
  | txPush b =>
    obtain rfl := Host.Outcome.next.inj h
    exact .inl (emitsAtMostOne_pushPayload b s)
  | txSend => exact .inl (emitsAtMostOne_sendPayload h)
  | uartTake => exact .inl (emitsAtMostOne_takeByte h)
  | uartEmpty =>
    obtain rfl := Host.Outcome.next.inj h
    exact .inl (emitsAtMostOne_uartDrained s)
  | tick =>
    obtain rfl := Host.Outcome.next.inj h
    exact .inl (emitsAtMostOne_tickGuard s)
  | rxByte b =>
    obtain rfl := Host.Outcome.next.inj h
    exact .inr ⟨.inl ⟨b, rfl⟩, receiveByte_frame b s⟩
  | statusResponse v dst src r =>
    obtain rfl := Host.Outcome.next.inj h
    exact .inr ⟨.inr ⟨v, dst, src, r, rfl⟩, receiveBytes_frame _ s⟩

theorem exec_extends_chan_keeps_params (h : exec i s = .next t) : s.chan <+: t.chan ∧ t.params = s.params := by
  obtain ⟨params, e, chan⟩ | ⟨-, _, evs, rfl⟩ := exec_emits h
  · exact ⟨⟨e.toList, chan.symm⟩, params⟩
  · exact ⟨⟨evs, rfl⟩, rfl⟩

/-- Settles O44: a step that runs no instruction leaves the channel, and an instruction only adds to it. -/
theorem eventsAreNeverWithdrawn : Obligations.EventsAreNeverWithdrawn := by
  intro s t h
  obtain ⟨-, rfl⟩ | ⟨_, -, rfl⟩ | ⟨_, rest, _, -, -, ran⟩ := step_cases h
  · exact ⟨List.prefix_rfl, rfl⟩
  · exact ⟨List.prefix_rfl, rfl⟩
  · exact exec_extends_chan_keeps_params (s := { s with pending := rest }) ran

/-- Settles O60: only the two receptions can emit more than one event. -/
theorem otherStepsEmitAtMostOneEvent : Obligations.OtherStepsEmitAtMostOneEvent := by
  intro i s t evs noByte noResponse h emitted
  obtain one | ⟨⟨b, rfl⟩ | ⟨v, dst, src, r, rfl⟩, -⟩ := exec_emits h
  · exact one.length_le emitted
  · exact absurd rfl (noByte b)
  · exact absurd rfl (noResponse v dst src r)

/-! ## Codes (R241) -/

/-- The codes 6 and 7 are reserved. -/
theorem Event.code_toNat_lt (e : Event) : e.code.toNat < 6 := by
  cases e with
  | frame | cksumErr | overrun | ptl | txDone | illegalOp => simp [Event.code]

/-- Settles O59: the codes and the origin bit are the rows of their tables. -/
theorem eventCodesFollowTheTable : Obligations.EventCodesFollowTheTable :=
  ⟨fun _ => rfl, fun _ _ => rfl, fun _ => rfl, fun _ => rfl, fun _ => rfl, fun _ => rfl, Event.code_toNat_lt, rfl, rfl⟩

/-! ## Faults (R250 to R252) -/

/-- A take faults only while no byte is offered. -/
theorem takeByte_fault (h : takeByte s = .fault f) : s.arb ≠ .sending ∧ f = .uartTake s.arb := by
  by_cases sending : s.arb = .sending
  · by_cases last : s.txi + 1 = s.txq.length
    · rw [takeByte_last sending last] at h; cases h
    · rw [takeByte_more sending last] at h; cases h
  · rw [takeByte_idle sending] at h
    exact ⟨sending, (Host.Outcome.fault.inj h).symm⟩

/-- A request with a payload faults as its TX_SEND does; one without a payload is refused. -/
theorem exec_request_fault (request : i.isRequest = true) (h : exec i s = .fault f) :
    i.request.isSome = true ∧ s.arb ≠ .listen ∧ f = .sendBusy s.arb := by
  obtain ⟨dst, src, cmd, data, fields⟩ | ⟨_, _, _, rfl, unlisted⟩ := request_of_isRequest request
  · rw [exec_of_request fields, sendRequest_eq _ _ _ _ _ ((request_length fields).trans (by decide))] at h
    exact ⟨by rw [fields]; rfl, sendPayload_fault (s := loadRequest dst src cmd data s) h⟩
  · rw [exec_setMode_invalid unlisted] at h; cases h

/-- Settles O45: only a send, by itself or at the end of a request, and a take can fault. -/
theorem faultsAreExactlyTheTwo : Obligations.FaultsAreExactlyTheTwo := by
  intro i s f
  constructor
  · intro h
    by_cases request : i.isRequest = true
    · obtain ⟨fields, fault⟩ := exec_request_fault request h
      exact .inl ⟨.inr fields, fault⟩
    cases i with
    | writeReg | remoteLocal | setMode | runStop | statusQuery => exact absurd rfl request
    | txSend => exact .inl ⟨.inl rfl, sendPayload_fault h⟩
    | uartTake => exact .inr ⟨rfl, takeByte_fault h⟩
    | _ => cases h
  · rintro (⟨rfl | request, busy, rfl⟩ | ⟨rfl, idle, rfl⟩)
    · exact sendPayload_busy busy
    · exact requestsFaultWhileBusy i s request busy
    · exact takeByte_idle idle

end Sys2Proof.Machine
end

section
/-! RESET (10_state.md R40, 70_reset_and_hazards.md R270): the state it answers, and what a cycle that presents it leaves. -/

namespace Sys2Proof.Machine

variable {c : Cycle}

/-! ## The reset state -/

theorem exec_reset (s : State) : exec .reset s = .next (resetCore s) := rfl

/-- The values of R40, written out; the last three fields are the model's own. -/
theorem resetCore_eq (s : State) :
    resetCore s =
      { ckAcc := 0x0000, txhDst := 0x00, txhSrc := 0x00, txhCmd := 0x00, txData := [], txPtl := false, txq := [], txi := 0,
        arb := .listen, de := false, gcnt := 0, rb := [], params := s.params, pending := s.pending, chan := s.chan } := rfl

/-! ## The cycle of a RESET (R233) -/

theorem decode_rst : decode .rst = .ok .reset := rfl

/-- RESET comes first, and of the other ports nothing is left. -/
theorem Cycle.first_of_rst (presents : c.rst = true) : c.first = some (.rst, Cycle.idle) := if_pos presents

/-- A cycle that presents RESET is taken whole, whatever its other ports present. -/
theorem takeInput_of_rst (presents : c.rst = true) (rest : List Input) :
    takeInput (.cycle c :: rest) = some (some .rst, rest) := by
  rw [takeInput_cycle rest (Cycle.first_of_rst presents), if_pos rfl]

/-- Settles O28: RESET answers the written-out state, and its cycle is taken whole and decoded to RESET. -/
theorem resetWritesEveryElement : Obligations.ResetWritesEveryElement := by
  constructor
  · intro s
    rw [exec_reset, resetCore_eq]
  · intro s c rest presents front
    have taken : takeInput s.pending = some (some .rst, rest) := by
      rw [front, takeInput_of_rst presents]
    exact step_of_decoded taken decode_rst

end Sys2Proof.Machine
end
